-- ==== Sys2Proof/Word.lean ====
section
/-! DEFINITION. The words of the machine: bytes, 16-bit words, register numbers, key codes. -/

namespace Sys2Proof

/-- An 8-bit value: a V register, DT, ST, a cell of MEM (R21, R27, R28, R30). -/
abbrev Byte := BitVec 8

/-- A 16-bit value: I, PC, a stack entry, an instruction word (R23, R24, R26, R70). -/
abbrev Word := BitVec 16

/-- A register number 0 to 15, the X or Y field of a word (R21, R71). -/
abbrev RegIdx := Fin 16

/-- A keypad code 0x0 to 0xF (R33, R210). -/
abbrev KeyCode := Fin 16

/-- The number of VF, the flag register (R22). -/
def vf : RegIdx := 15

end Sys2Proof
end

