-- ==== Sys2Proof/Syntax.lean ====
section
/-! DEFINITION. The instruction set: one constructor for each row of spec/opcode_table.json (R76), in the table's
order, the catch-all row last. -/

namespace Sys2Proof

/-- The instructions. `x` and `y` are register numbers, `nn` and `nnn` immediates, `n` a row count (R72, R73). -/
inductive Instr where
  /-- 00E0 `CLS` (R192). -/
  | cls
  /-- 00EE `RET` (R108). -/
  | ret
  /-- 0NNN `SYS nnn`, not 00E0 or 00EE (R104). -/
  | sys (nnn : BitVec 12)
  /-- 1NNN `JP nnn` (R105). -/
  | jp (nnn : BitVec 12)
  /-- 2NNN `CALL nnn` (R106). -/
  | call (nnn : BitVec 12)
  /-- 3XNN `SE Vx, nn` (R121). -/
  | seImm (x : RegIdx) (nn : Byte)
  /-- 4XNN `SNE Vx, nn` (R122). -/
  | sneImm (x : RegIdx) (nn : Byte)
  /-- 5XY0 `SE Vx, Vy` (R123). -/
  | seReg (x y : RegIdx)
  /-- 6XNN `LD Vx, nn` (R141). -/
  | ldImm (x : RegIdx) (nn : Byte)
  /-- 7XNN `ADD Vx, nn` (R142). -/
  | addImm (x : RegIdx) (nn : Byte)
  /-- 8XY0 `LD Vx, Vy` (R143). -/
  | ldReg (x y : RegIdx)
  /-- 8XY1 `OR Vx, Vy` (R144). -/
  | orReg (x y : RegIdx)
  /-- 8XY2 `AND Vx, Vy` (R145). -/
  | andReg (x y : RegIdx)
  /-- 8XY3 `XOR Vx, Vy` (R146). -/
  | xorReg (x y : RegIdx)
  /-- 8XY4 `ADD Vx, Vy` (R147). -/
  | addReg (x y : RegIdx)
  /-- 8XY5 `SUB Vx, Vy` (R148). -/
  | subReg (x y : RegIdx)
  /-- 8XY6 `SHR Vx, Vy` (R150). -/
  | shr (x y : RegIdx)
  /-- 8XY7 `SUBN Vx, Vy` (R151). -/
  | subnReg (x y : RegIdx)
  /-- 8XYE `SHL Vx, Vy` (R152). -/
  | shl (x y : RegIdx)
  /-- 9XY0 `SNE Vx, Vy` (R124). -/
  | sneReg (x y : RegIdx)
  /-- ANNN `LD I, nnn` (R171). -/
  | ldI (nnn : BitVec 12)
  /-- BNNN `JP V0, nnn` (R107). -/
  | jpV0 (nnn : BitVec 12)
  /-- CXNN `RND Vx, nn` (R153). -/
  | rnd (x : RegIdx) (nn : Byte)
  /-- DXYN `DRW Vx, Vy, n` (R194). -/
  | drw (x y : RegIdx) (n : Fin 16)
  /-- EX9E `SKP Vx` (R125). -/
  | skp (x : RegIdx)
  /-- EXA1 `SKNP Vx` (R126). -/
  | sknp (x : RegIdx)
  /-- FX07 `LD Vx, DT` (R201). -/
  | ldVxDt (x : RegIdx)
  /-- FX0A `LD Vx, K` (R203). -/
  | ldVxK (x : RegIdx)
  /-- FX15 `LD DT, Vx` (R202). -/
  | ldDtVx (x : RegIdx)
  /-- FX18 `LD ST, Vx` (R205). -/
  | ldStVx (x : RegIdx)
  /-- FX1E `ADD I, Vx` (R172). -/
  | addI (x : RegIdx)
  /-- FX29 `LD F, Vx` (R173). -/
  | ldF (x : RegIdx)
  /-- FX33 `LD B, Vx` (R174). -/
  | ldB (x : RegIdx)
  /-- FX55 `LD [I], Vx` (R176). -/
  | ldMemVx (x : RegIdx)
  /-- FX65 `LD Vx, [I]` (R177). -/
  | ldVxMem (x : RegIdx)
  /-- Any word that matches no pattern (R78, R109). -/
  | unrecognised (w : Word)
  deriving DecidableEq, Repr

end Sys2Proof
end

