-- ==== Sys2Proof/WellFormed.lean ====
section
/-! DEFINITION. Which terms of `Instr` are instructions of the machine. Field widths are in the types; what is left is
that a legacy call is not one of the two fixed words of group 0, and that an unrecognised word matches no pattern. -/

namespace Sys2Proof

/-- R77: the legacy calls are the words of group 0 but 0x00E0 and 0x00EE. -/
def isLegacyCall (nnn : BitVec 12) : Bool := nnn != 0x0E0#12 && nnn != 0x0EE#12

/-- R78: the five sets of unrecognised words, by the high nibble and its discriminator. -/
def isUnrecognised (w : Word) : Bool :=
  let group := w.toNat / 0x1000
  let n := w.toNat % 0x10
  let kk := w.toNat % 0x100
  (group == 0x5 && n != 0x0) ||
  (group == 0x8 && [0x8, 0x9, 0xA, 0xB, 0xC, 0xD, 0xF].contains n) ||
  (group == 0x9 && n != 0x0) ||
  (group == 0xE && !([0x9E, 0xA1].contains kk)) ||
  (group == 0xF && !([0x07, 0x0A, 0x15, 0x18, 0x1E, 0x29, 0x33, 0x55, 0x65].contains kk))

/-- A well-formed instruction: one that some word of memory encodes. -/
def wellFormed : Instr → Bool
  | .sys nnn => isLegacyCall nnn
  | .unrecognised w => isUnrecognised w
  | .cls | .ret => true
  | .jp _ | .call _ | .ldI _ | .jpV0 _ => true
  | .seImm _ _ | .sneImm _ _ | .ldImm _ _ | .addImm _ _ | .rnd _ _ => true
  | .seReg _ _ | .sneReg _ _ | .ldReg _ _ | .orReg _ _ | .andReg _ _ | .xorReg _ _ | .addReg _ _ | .subReg _ _
  | .shr _ _ | .subnReg _ _ | .shl _ _ => true
  | .drw _ _ _ => true
  | .skp _ | .sknp _ | .ldVxDt _ | .ldVxK _ | .ldDtVx _ | .ldStVx _ | .addI _ | .ldF _ | .ldB _ | .ldMemVx _
  | .ldVxMem _ => true

end Sys2Proof
end

