-- ==== Sys2Proof/Decode.lean ====
section
/-! DEFINITION. The decoder (R70 to R84), total on every byte sequence, and after it the encoder and the opcode table
in the first-match form of R84. -/

namespace Sys2Proof

/-! ### Fields of a word (R71) -/

/-- `op[15:12]`, the primary opcode. -/
def opHi (w : Word) : BitVec 4 := w.extractLsb' 12 4
/-- `X = op[11:8]`. -/
def fieldX (w : Word) : RegIdx := (w.extractLsb' 8 4).toFin
/-- `Y = op[7:4]`. -/
def fieldY (w : Word) : RegIdx := (w.extractLsb' 4 4).toFin
/-- `N = op[3:0]`. -/
def fieldN (w : Word) : BitVec 4 := w.extractLsb' 0 4
/-- `NN = op[7:0]`. -/
def fieldNN (w : Word) : Byte := w.extractLsb' 0 8
/-- `NNN = op[11:0]`. -/
def fieldNNN (w : Word) : BitVec 12 := w.extractLsb' 0 12

/-! ### Dispatch by the high nibble and its discriminator (R74) -/

/-- Group 0: the discriminator is the whole of NNN (R74, R77). -/
def decodeGroup0 (w : Word) : Instr :=
  match (fieldNNN w).toNat with
  | 0x0E0 => .cls
  | 0x0EE => .ret
  | _ => .sys (fieldNNN w)

/-- Group 5: the discriminator is N (R74, R78). -/
def decodeGroup5 (w : Word) : Instr :=
  match (fieldN w).toNat with
  | 0x0 => .seReg (fieldX w) (fieldY w)
  | _ => .unrecognised w

/-- Group 8: the discriminator is N (R74, R78). -/
def decodeGroup8 (w : Word) : Instr :=
  match (fieldN w).toNat with
  | 0x0 => .ldReg (fieldX w) (fieldY w)
  | 0x1 => .orReg (fieldX w) (fieldY w)
  | 0x2 => .andReg (fieldX w) (fieldY w)
  | 0x3 => .xorReg (fieldX w) (fieldY w)
  | 0x4 => .addReg (fieldX w) (fieldY w)
  | 0x5 => .subReg (fieldX w) (fieldY w)
  | 0x6 => .shr (fieldX w) (fieldY w)
  | 0x7 => .subnReg (fieldX w) (fieldY w)
  | 0xE => .shl (fieldX w) (fieldY w)
  | _ => .unrecognised w

/-- Group 9: the discriminator is N (R74, R78). -/
def decodeGroup9 (w : Word) : Instr :=
  match (fieldN w).toNat with
  | 0x0 => .sneReg (fieldX w) (fieldY w)
  | _ => .unrecognised w

/-- Group E: the discriminator is NN (R74, R78). -/
def decodeGroupE (w : Word) : Instr :=
  match (fieldNN w).toNat with
  | 0x9E => .skp (fieldX w)
  | 0xA1 => .sknp (fieldX w)
  | _ => .unrecognised w

/-- Group F: the discriminator is NN (R74, R78). -/
def decodeGroupF (w : Word) : Instr :=
  match (fieldNN w).toNat with
  | 0x07 => .ldVxDt (fieldX w)
  | 0x0A => .ldVxK (fieldX w)
  | 0x15 => .ldDtVx (fieldX w)
  | 0x18 => .ldStVx (fieldX w)
  | 0x1E => .addI (fieldX w)
  | 0x29 => .ldF (fieldX w)
  | 0x33 => .ldB (fieldX w)
  | 0x55 => .ldMemVx (fieldX w)
  | 0x65 => .ldVxMem (fieldX w)
  | _ => .unrecognised w

/-- The decoder: a pure function of the 16-bit word, total (R71, R74, R75). The last case is group F, since the
nibble is at most 15. -/
def decodeWord (w : Word) : Instr :=
  match (opHi w).toNat with
  | 0x0 => decodeGroup0 w
  | 0x1 => .jp (fieldNNN w)
  | 0x2 => .call (fieldNNN w)
  | 0x3 => .seImm (fieldX w) (fieldNN w)
  | 0x4 => .sneImm (fieldX w) (fieldNN w)
  | 0x5 => decodeGroup5 w
  | 0x6 => .ldImm (fieldX w) (fieldNN w)
  | 0x7 => .addImm (fieldX w) (fieldNN w)
  | 0x8 => decodeGroup8 w
  | 0x9 => decodeGroup9 w
  | 0xA => .ldI (fieldNNN w)
  | 0xB => .jpV0 (fieldNNN w)
  | 0xC => .rnd (fieldX w) (fieldNN w)
  | 0xD => .drw (fieldX w) (fieldY w) (fieldN w).toFin
  | 0xE => decodeGroupE w
  | _ => decodeGroupF w

/-! ### From bytes -/

/-- Why a byte sequence holds no instruction. -/
inductive DecodeError where
  /-- Fewer than the two bytes of an instruction (R70). -/
  | truncated
  deriving DecidableEq, Repr

/-- The word of two bytes, the byte of the lower address in the high bits (R54). -/
def wordOfBytes (hi lo : Byte) : Word := hi ++ lo

/-- The two bytes of a word as memory stores them, the high byte at the lower address (R54, R70). -/
def bytesOfWord (w : Word) : List Byte := [w.extractLsb' 8 8, w.extractLsb' 0 8]

/-- The first instruction of a byte sequence and the bytes after it (R70). -/
def decodeBytes : List Byte → Except DecodeError (Instr × List Byte)
  | hi :: lo :: rest => .ok (decodeWord (wordOfBytes hi lo), rest)
  | [_] => .error .truncated
  | [] => .error .truncated

/-- The low `nbits` bits of `w`, as an instruction word. -/
def tableWord (nbits w : Nat) : Word := BitVec.ofNat 16 (w % 2 ^ nbits)

/-- The instruction the decoder reads from a word numbered as spec/opcode_table.json numbers it (log 22). -/
def decodeTableWord (nbits w : Nat) : Option Instr :=
  match decodeBytes (bytesOfWord (tableWord nbits w)) with
  | .ok (i, _) => some i
  | .error _ => none

/-! ### The encoder (R72, R82) -/

/-- A 4-bit field that holds a number 0 to 15. -/
def nibble (x : Fin 16) : BitVec 4 := BitVec.ofFin x

/-- Format A: a 12-bit address (R72). -/
def encodeA (op : BitVec 4) (nnn : BitVec 12) : Word := op ++ nnn
/-- Format I: a register and a byte immediate (R72). -/
def encodeI (op : BitVec 4) (x : RegIdx) (nn : Byte) : Word := op ++ (nibble x ++ nn : BitVec 12)
/-- Format R: two registers and a nibble (R72). -/
def encodeR (op : BitVec 4) (x y : RegIdx) (n : BitVec 4) : Word :=
  op ++ (nibble x ++ (nibble y ++ n : BitVec 8) : BitVec 12)
/-- Format K: a register and a fixed low byte (R72). -/
def encodeK (op : BitVec 4) (x : RegIdx) (kk : BitVec 8) : Word := op ++ (nibble x ++ kk : BitVec 12)

/-- The word of a well-formed instruction (R76, R82). -/
def encode : Instr → Word
  | .cls => 0x00E0#16
  | .ret => 0x00EE#16
  | .sys nnn => encodeA 0x0#4 nnn
  | .jp nnn => encodeA 0x1#4 nnn
  | .call nnn => encodeA 0x2#4 nnn
  | .seImm x nn => encodeI 0x3#4 x nn
  | .sneImm x nn => encodeI 0x4#4 x nn
  | .seReg x y => encodeR 0x5#4 x y 0x0#4
  | .ldImm x nn => encodeI 0x6#4 x nn
  | .addImm x nn => encodeI 0x7#4 x nn
  | .ldReg x y => encodeR 0x8#4 x y 0x0#4
  | .orReg x y => encodeR 0x8#4 x y 0x1#4
  | .andReg x y => encodeR 0x8#4 x y 0x2#4
  | .xorReg x y => encodeR 0x8#4 x y 0x3#4
  | .addReg x y => encodeR 0x8#4 x y 0x4#4
  | .subReg x y => encodeR 0x8#4 x y 0x5#4
  | .shr x y => encodeR 0x8#4 x y 0x6#4
  | .subnReg x y => encodeR 0x8#4 x y 0x7#4
  | .shl x y => encodeR 0x8#4 x y 0xE#4
  | .sneReg x y => encodeR 0x9#4 x y 0x0#4
  | .ldI nnn => encodeA 0xA#4 nnn
  | .jpV0 nnn => encodeA 0xB#4 nnn
  | .rnd x nn => encodeI 0xC#4 x nn
  | .drw x y n => encodeR 0xD#4 x y (nibble n)
  | .skp x => encodeK 0xE#4 x 0x9E#8
  | .sknp x => encodeK 0xE#4 x 0xA1#8
  | .ldVxDt x => encodeK 0xF#4 x 0x07#8
  | .ldVxK x => encodeK 0xF#4 x 0x0A#8
  | .ldDtVx x => encodeK 0xF#4 x 0x15#8
  | .ldStVx x => encodeK 0xF#4 x 0x18#8
  | .addI x => encodeK 0xF#4 x 0x1E#8
  | .ldF x => encodeK 0xF#4 x 0x29#8
  | .ldB x => encodeK 0xF#4 x 0x33#8
  | .ldMemVx x => encodeK 0xF#4 x 0x55#8
  | .ldVxMem x => encodeK 0xF#4 x 0x65#8
  | .unrecognised w => w

/-! ### The opcode table, first match wins (R76, R84) -/

/-- A row of the opcode table: a word is on the row when `op & mask = match` (R76, R84). -/
structure OpcodeRow where
  row       : Nat
  mask      : Word
  pattern   : Word
  deriving DecidableEq, Repr

/-- Rows 1 to 12 of R76. -/
def opcodeRowsA : List OpcodeRow :=
  [⟨1, 0xFFFF#16, 0x00E0#16⟩,
   ⟨2, 0xFFFF#16, 0x00EE#16⟩,
   ⟨3, 0xF000#16, 0x0000#16⟩,
   ⟨4, 0xF000#16, 0x1000#16⟩,
   ⟨5, 0xF000#16, 0x2000#16⟩,
   ⟨6, 0xF000#16, 0x3000#16⟩,
   ⟨7, 0xF000#16, 0x4000#16⟩,
   ⟨8, 0xF00F#16, 0x5000#16⟩,
   ⟨9, 0xF000#16, 0x6000#16⟩,
   ⟨10, 0xF000#16, 0x7000#16⟩,
   ⟨11, 0xF00F#16, 0x8000#16⟩,
   ⟨12, 0xF00F#16, 0x8001#16⟩]
/-- Rows 13 to 24 of R76. -/
def opcodeRowsB : List OpcodeRow :=
  [⟨13, 0xF00F#16, 0x8002#16⟩,
   ⟨14, 0xF00F#16, 0x8003#16⟩,
   ⟨15, 0xF00F#16, 0x8004#16⟩,
   ⟨16, 0xF00F#16, 0x8005#16⟩,
   ⟨17, 0xF00F#16, 0x8006#16⟩,
   ⟨18, 0xF00F#16, 0x8007#16⟩,
   ⟨19, 0xF00F#16, 0x800E#16⟩,
   ⟨20, 0xF00F#16, 0x9000#16⟩,
   ⟨21, 0xF000#16, 0xA000#16⟩,
   ⟨22, 0xF000#16, 0xB000#16⟩,
   ⟨23, 0xF000#16, 0xC000#16⟩,
   ⟨24, 0xF000#16, 0xD000#16⟩]
/-- Rows 25 to 36 of R76. -/
def opcodeRowsC : List OpcodeRow :=
  [⟨25, 0xF0FF#16, 0xE09E#16⟩,
   ⟨26, 0xF0FF#16, 0xE0A1#16⟩,
   ⟨27, 0xF0FF#16, 0xF007#16⟩,
   ⟨28, 0xF0FF#16, 0xF00A#16⟩,
   ⟨29, 0xF0FF#16, 0xF015#16⟩,
   ⟨30, 0xF0FF#16, 0xF018#16⟩,
   ⟨31, 0xF0FF#16, 0xF01E#16⟩,
   ⟨32, 0xF0FF#16, 0xF029#16⟩,
   ⟨33, 0xF0FF#16, 0xF033#16⟩,
   ⟨34, 0xF0FF#16, 0xF055#16⟩,
   ⟨35, 0xF0FF#16, 0xF065#16⟩,
   ⟨36, 0x0000#16, 0x0000#16⟩]
/-- The table of R76 in its order, the catch-all row last (R84). -/
def opcodeTable : List OpcodeRow := opcodeRowsA ++ opcodeRowsB ++ opcodeRowsC

/-- Whether a word is on a row. -/
def OpcodeRow.holds (r : OpcodeRow) (w : Word) : Bool := w &&& r.mask == r.pattern

/-- The number of the first row a word is on (R84). -/
def firstRow (w : Word) : Option Nat := (opcodeTable.find? fun r => r.holds w).map fun r => r.row

/-- The row of the table an instruction comes from (R76). -/
def Instr.row : Instr → Nat
  | .cls => 1
  | .ret => 2
  | .sys _ => 3
  | .jp _ => 4
  | .call _ => 5
  | .seImm _ _ => 6
  | .sneImm _ _ => 7
  | .seReg _ _ => 8
  | .ldImm _ _ => 9
  | .addImm _ _ => 10
  | .ldReg _ _ => 11
  | .orReg _ _ => 12
  | .andReg _ _ => 13
  | .xorReg _ _ => 14
  | .addReg _ _ => 15
  | .subReg _ _ => 16
  | .shr _ _ => 17
  | .subnReg _ _ => 18
  | .shl _ _ => 19
  | .sneReg _ _ => 20
  | .ldI _ => 21
  | .jpV0 _ => 22
  | .rnd _ _ => 23
  | .drw _ _ _ => 24
  | .skp _ => 25
  | .sknp _ => 26
  | .ldVxDt _ => 27
  | .ldVxK _ => 28
  | .ldDtVx _ => 29
  | .ldStVx _ => 30
  | .addI _ => 31
  | .ldF _ => 32
  | .ldB _ => 33
  | .ldMemVx _ => 34
  | .ldVxMem _ => 35
  | .unrecognised _ => 36
end Sys2Proof
end

