-- ==== Sys2Proof/Config.lean ====
section
/-! DEFINITION. What one instance of the machine fixes at construction (R6, R7, R38), and the free values. -/

namespace Sys2Proof

/-- The configuration of one machine instance (R7): the five quirk flags, the halt margin and the stack bound.
It is fixed at construction and no transition changes it. -/
structure Config where
  /-- `Q_VF_RESET`: 8XY1, 8XY2, 8XY3 zero VF first. -/
  vfReset    : Bool
  /-- `Q_INC_I`: FX55 and FX65 advance I past the last byte. -/
  incI       : Bool
  /-- `Q_CLIP`: sprites are clipped at the edges, not wrapped. -/
  clip       : Bool
  /-- `Q_SHIFT_VX`: 8XY6 and 8XYE shift V[X] and ignore V[Y]. -/
  shiftVx    : Bool
  /-- `Q_JUMP_VX`: BNNN adds V[X] and not V[0]. -/
  jumpVx     : Bool
  /-- `HALT_MARGIN`, 0 or 1. -/
  haltMargin : Fin 2
  /-- `STACK_DEPTH`; `none` is unbounded. -/
  stackDepth : Option Nat
  deriving DecidableEq, Repr

/-- The quirk configuration word of R38: bit 0 `Q_VF_RESET`, bit 1 `Q_INC_I`, bit 2 `Q_CLIP`, bit 3 `Q_SHIFT_VX`,
bit 4 `Q_JUMP_VX`. -/
def Config.quirkWord (c : Config) : BitVec 5 :=
  BitVec.ofBool c.jumpVx ++ BitVec.ofBool c.shiftVx ++ BitVec.ofBool c.clip ++ BitVec.ofBool c.incI ++
    BitVec.ofBool c.vfReset

/-- FREE VALUE (log 2). The value of `Q_CLIP` in the machine of `State.reset`: R7 gives it no default. -/
opaque Config.clipAtReset : Bool

/-- FREE VALUE (log 6). `draw8()` of R153: the value of the n-th draw that CXNN makes, under no law. -/
opaque Config.draw : Nat → Byte

/-- `MEM_SIZE` (R6). -/
def memSize : Nat := 4096
/-- `FONT_BASE` (R6). -/
def fontBase : Nat := 0x050
/-- `ROM_START` (R6). -/
def romStart : Nat := 0x200
/-- The room for a ROM, from `ROM_START` to the end of memory (R256). -/
def romRoom : Nat := 3584
/-- The nominal instruction rate `INSTR_HZ` (R266): timing only, read by no rule. -/
def instrHz : Nat := 500
/-- The nominal timer rate `TIMER_HZ` (R266): timing only, read by no rule. -/
def timerHz : Nat := 60

end Sys2Proof
end

