-- ==== Sys2Proof/Machine/Defaults.lean ====
section
/-! DEFINITION. The configuration of the machine that `State.reset` is (R7). -/

namespace Sys2Proof.Machine

/-- The values R7 gives by default; `Q_CLIP`, which it leaves open, is the free value `Config.clipAtReset`
(log 2, log 3). -/
def defaultConfig : Config where
  vfReset := false
  incI := false
  clip := Config.clipAtReset
  shiftVx := true
  jumpVx := false
  haltMargin := 1
  stackDepth := none

end Sys2Proof.Machine
end

