-- ==== Sys2Proof/Machine/Framebuffer.lean ====
section
/-! DEFINITION. FB: 64 columns by 32 rows of one-bit pixels (R32, R190). -/

namespace Sys2Proof.Machine

/-- The pixels, row by row: `fb[y][x]` is column x of row y, true = on (R8, R32). -/
abbrev Framebuffer := Vector (Vector Bool 64) 32

/-- All pixels off (R32, R192). -/
def blankScreen : Framebuffer := Vector.replicate 32 (Vector.replicate 64 false)

/-- `FB[y][x]`. -/
def pixelAt (fb : Framebuffer) (x : Fin 64) (y : Fin 32) : Bool := fb[y.val][x.val]

/-- `FB[y][x] <- on`. -/
def setPixelAt (fb : Framebuffer) (x : Fin 64) (y : Fin 32) (on : Bool) : Framebuffer :=
  fb.set y.val (fb[y.val].set x.val on)

end Sys2Proof.Machine
end

