-- ==== Sys2Proof/Machine/Memory.lean ====
section
/-! DEFINITION. MEM: 4096 bytes (R30, R50), held as the cells that differ from the reset image, and the reset image
itself with its font (R31, R40, R65). -/

namespace Sys2Proof.Machine

/-- The glyphs 0 to 7 of the default font (R31; log 4). -/
def fontGlyphsLow : List Byte :=
  [0xF0, 0x90, 0x90, 0x90, 0xF0] ++ [0x20, 0x60, 0x20, 0x20, 0x70] ++
  [0xF0, 0x10, 0xF0, 0x80, 0xF0] ++ [0xF0, 0x10, 0xF0, 0x10, 0xF0] ++
  [0x90, 0x90, 0xF0, 0x10, 0x10] ++ [0xF0, 0x80, 0xF0, 0x10, 0xF0] ++
  [0xF0, 0x80, 0xF0, 0x90, 0xF0] ++ [0xF0, 0x10, 0x20, 0x40, 0x40]

/-- The glyphs 8 to F of the default font (R31; log 4). -/
def fontGlyphsHigh : List Byte :=
  [0xF0, 0x90, 0xF0, 0x90, 0xF0] ++ [0xF0, 0x90, 0xF0, 0x10, 0xF0] ++
  [0xF0, 0x90, 0xF0, 0x90, 0x90] ++ [0xE0, 0x90, 0xE0, 0x90, 0xE0] ++
  [0xF0, 0x80, 0x80, 0x80, 0xF0] ++ [0xE0, 0x90, 0x90, 0x90, 0xE0] ++
  [0xF0, 0x80, 0xF0, 0x80, 0xF0] ++ [0xF0, 0x80, 0xF0, 0x80, 0x80]

/-- `FONT` at its default: 16 glyphs of 5 bytes, top row first (R7, R31). -/
def defaultFont : List Byte := fontGlyphsLow ++ fontGlyphsHigh

/-- What an address reads as when no cell lists it: the reset image without a ROM, which is the font from
`FONT_BASE` on and 0 everywhere else (R40, R65; log 5). -/
def background (a : Nat) : Byte := if a < fontBase then 0 else defaultFont.getD (a - fontBase) 0

/-- The cells of MEM that differ from `background`, by rising address. -/
abbrev Memory := List Host.Cell

/-- The canonical form, from an address bound `lo` on: addresses strictly rising, below `MEM_SIZE`, and no cell equal
to what its address reads as unlisted. -/
def Memory.wfFrom : Nat → Memory → Bool
  | _, [] => true
  | lo, (a, b) :: m => decide (lo ≤ a) && decide (a < memSize) && decide (b ≠ background a) && Memory.wfFrom (a + 1) m

/-- The canonical form of MEM: equal memories are equal lists. -/
def Memory.wf (m : Memory) : Bool := Memory.wfFrom 0 m

/-- The byte at an address (R52); the range check is the caller's (`inMemory` in Ops). -/
def Memory.read : Memory → Nat → Byte
  | [], a => background a
  | (a', b) :: m, a => if a = a' then b else Memory.read m a

/-- The list with a cell put at its place. -/
def Memory.insert : Memory → Nat → Byte → Memory
  | [], a, b => [(a, b)]
  | (a', b') :: m, a, b =>
    if a < a' then (a, b) :: (a', b') :: m
    else if a = a' then (a, b) :: m
    else (a', b') :: Memory.insert m a b

/-- The list without the cell of an address. -/
def Memory.erase : Memory → Nat → Memory
  | [], _ => []
  | (a', b') :: m, a => if a = a' then m else (a', b') :: Memory.erase m a

/-- The store of one byte (R53), which keeps the canonical form; the range check is the caller's. -/
def Memory.write (m : Memory) (a : Nat) (b : Byte) : Memory :=
  if b = background a then Memory.erase m a else Memory.insert m a b

/-- The store of bytes at rising addresses from `a` on (R57). -/
def Memory.writeList : Memory → Nat → List Byte → Memory
  | m, _, [] => m
  | m, a, b :: bs => Memory.writeList (Memory.write m a b) (a + 1) bs

/-- The `n` bytes at rising addresses from `a` on (R57). -/
def Memory.readList (m : Memory) (a n : Nat) : List Byte := (List.range n).map fun k => Memory.read m (a + k)

end Sys2Proof.Machine
end

