-- ==== Sys2Proof/Machine/State.lean ====
section
/-! DEFINITION. The state of the machine (R20), as plain data, and its reset (R40, R250). -/

namespace Sys2Proof.Machine

/-- The fault causes of R221. The spec makes a fault a terminal value of RUN with every other field recorded (R224), so
`raiseFault` answers the NEXT state with RUN = Fault(cause); no step answers `Outcome.fault` (log 10), and each cause
is safe: it is the spec's own outcome. -/
inductive Fault where
  /-- Code 3. Raised by 00EE on the empty stack (R108). -/
  | stackUnderflow
  /-- Code 4. Raised by 2NNN when the stack is bounded and full (R106). -/
  | stackOverflow
  /-- Code 5. Raised by the fetch at PC = 4095 (R56, R100). -/
  | fetchOutOfRange
  /-- Code 6. Raised by DXYN, FX33, FX55, FX65 when their range leaves memory (R56). -/
  | memOutOfRange
  deriving DecidableEq, Repr

/-- Why the model gives no meaning. -/
inductive Refusal where
  /-- Raised by an arm of `exec` that has no meaning yet; no arm does. Safe: the model stops. -/
  | notModelled (mnemonic : String)
  /-- Raised by `loadRom` for a ROM longer than 3584 bytes (R256). Safe: the launch has no meaning. -/
  | romTooLarge
  deriving DecidableEq, Repr

/-- The halt causes of R34 and R221. -/
inductive HaltCause where
  /-- Code 1: the halt check (R101). -/
  | pcExhausted
  /-- Code 2: a host quit (R226). -/
  | quit
  deriving DecidableEq, Repr

/-- RUN, the run state of the engine (R34). -/
inductive RunState where
  /-- Code 0: the next engine step fetches at PC. -/
  | running
  /-- Code 1: FX0A waits for a key; `latch` is the key whose key-down has been seen. -/
  | awaitingKey (x : RegIdx) (latch : Option KeyCode)
  /-- Code 2: terminal. -/
  | halted (cause : HaltCause)
  /-- Code 3: terminal. -/
  | fault (cause : Fault)
  deriving DecidableEq, Repr

/-- The kinds of a log event (R233). -/
inductive LogKind where
  | legacyCall
  | unrecognised
  deriving DecidableEq, Repr

/-- The output events (R233). -/
inductive OutputEvent where
  /-- Rendering: `clear()`. -/
  | clear
  /-- Rendering: `set_pixel(x, y, on)`. -/
  | setPixel (x : Fin 64) (y : Fin 32) (on : Bool)
  /-- Rendering: `present()`. -/
  | present
  /-- Audio: `play_loop()`. -/
  | playLoop
  /-- Audio: `stop()`. -/
  | stop
  /-- Diagnostics (R239). -/
  | log (kind : LogKind) (pc op : Word)
  deriving DecidableEq, Repr

/-- The atomic transitions a run is made of (R10, R229, R265). -/
inductive Transition where
  /-- The engine (R100). -/
  | engineStep
  /-- The timer scheduler (R208). -/
  | timerTick
  /-- The host presses a key (R211). -/
  | keyDown (k : KeyCode)
  /-- The host releases a key (R212). -/
  | keyUp (k : KeyCode)
  /-- The host quits (R226). -/
  | quit
  deriving DecidableEq, Repr

/-- The state: the fields of R20, the configuration of R7 (log 1), and three fields of the model's own, `draws`
(log 6), `schedule` (log 7) and `trace` (log 9). -/
structure State where
  /-- V0 to VF (R21). -/
  v        : Vector Byte 16
  /-- I (R23). -/
  i        : Word
  /-- PC (R24). -/
  pc       : Word
  /-- STACK, the last entry on top (R26). -/
  stack    : List Word
  /-- DT (R27). -/
  dt       : Byte
  /-- ST (R28). -/
  st       : Byte
  /-- SND (R29). -/
  snd      : Bool
  /-- MEM (R30). -/
  mem      : Memory
  /-- FB (R32). -/
  fb       : Framebuffer
  /-- KEYS: bit k = key k is held (R33). -/
  keys     : BitVec 16
  /-- RUN (R34). -/
  run      : RunState
  /-- SKIP (R35). -/
  skip     : Bool
  /-- ROM_SIZE (R36). -/
  romSize  : Nat
  /-- The configuration of the instance, fixed at construction (R7, R38). -/
  config   : Config
  /-- The model's own: how many draws CXNN has made. -/
  draws    : Nat
  /-- The model's own: the transitions the environment makes next. -/
  schedule : List Transition
  /-- The model's own: the output events so far, the oldest first. -/
  trace    : List OutputEvent
  deriving DecidableEq, Repr

/-- The machine right after construction with the default configuration, no key held and no ROM loaded
(R40, R250). -/
def State.reset : State where
  v := Vector.replicate 16 0
  i := 0x200
  pc := 0x200
  stack := []
  dt := 0
  st := 0
  snd := false
  mem := []
  fb := blankScreen
  keys := 0
  run := .running
  skip := false
  romSize := 0
  config := defaultConfig
  draws := 0
  schedule := []
  trace := []

end Sys2Proof.Machine
end

