-- ==== Sys2Proof/Machine/Ops.lean ====
section
/-! DEFINITION. The named operations over registers, memory, stack, RUN, PC and the output trace, and the raising of a
fault. -/

namespace Sys2Proof.Machine

/-- What a meaning and a step answer. -/
abbrev Answer := Host.Outcome State Fault Refusal

/-! ### One home for each field -/

/-- `V[x]` (R8, R21). -/
def State.reg (s : State) (x : RegIdx) : Byte := s.v[x.val]
/-- `V[x] <- b`. -/
def State.setReg (s : State) (x : RegIdx) (b : Byte) : State := { s with v := s.v.set x.val b }
/-- All of V at once (FX65). -/
def State.setRegs (s : State) (v : Vector Byte 16) : State := { s with v := v }
/-- `I <- w`. -/
def State.setI (s : State) (w : Word) : State := { s with i := w }
/-- `PC <- w`. -/
def State.setPc (s : State) (w : Word) : State := { s with pc := w }
/-- STACK as a whole. -/
def State.setStack (s : State) (st : List Word) : State := { s with stack := st }
/-- `DT <- b`. -/
def State.setDt (s : State) (b : Byte) : State := { s with dt := b }
/-- `ST <- b`. -/
def State.setSt (s : State) (b : Byte) : State := { s with st := b }
/-- `SND <- b`. -/
def State.setSnd (s : State) (b : Bool) : State := { s with snd := b }
/-- MEM as a whole. -/
def State.setMem (s : State) (m : Memory) : State := { s with mem := m }
/-- FB as a whole. -/
def State.setFb (s : State) (fb : Framebuffer) : State := { s with fb := fb }
/-- KEYS as a whole. -/
def State.setKeys (s : State) (k : BitVec 16) : State := { s with keys := k }
/-- `RUN <- r`. -/
def State.setRun (s : State) (r : RunState) : State := { s with run := r }
/-- `SKIP <- b`. -/
def State.setSkip (s : State) (b : Bool) : State := { s with skip := b }
/-- `ROM_SIZE <- n`. -/
def State.setRomSize (s : State) (n : Nat) : State := { s with romSize := n }
/-- The transitions the environment makes next (log 7). -/
def State.setSchedule (s : State) (ts : List Transition) : State := { s with schedule := ts }
/-- One more draw is made (log 6). -/
def State.countDraw (s : State) : State := { s with draws := s.draws + 1 }
/-- `emit` of events in order (R8, R233). -/
def State.emit (s : State) (es : List OutputEvent) : State := { s with trace := s.trace ++ es }

/-! ### Memory -/

/-- Whether the `n` bytes from `a` on all exist; a range of no byte does (R52, R53, R56). -/
def inMemory (a n : Nat) : Bool := n == 0 || decide (a + n ≤ memSize)

/-- `MEM[a]` (R52). -/
def State.readByte (s : State) (a : Nat) : Byte := Memory.read s.mem a
/-- The `n` bytes from `a` on (R57). -/
def State.loadBytes (s : State) (a n : Nat) : List Byte := Memory.readList s.mem a n
/-- Bytes stored from `a` on (R53, R57). -/
def State.storeBytes (s : State) (a : Nat) (bs : List Byte) : State := s.setMem (Memory.writeList s.mem a bs)

/-- The fetch of R54: two bytes from PC, high byte first; `none` when the second byte does not exist (R56). -/
def fetchWord (s : State) : Option Word :=
  if s.pc.toNat + 1 < memSize then some (wordOfBytes (s.readByte s.pc.toNat) (s.readByte (s.pc.toNat + 1))) else none

/-! ### Stack -/

/-- Whether STACK holds `STACK_DEPTH` entries (R26, R106). -/
def stackFull (s : State) : Bool :=
  match s.config.stackDepth with
  | none => false
  | some d => s.stack.length == d

/-- `push(w)`: `w` is the new last entry (R26). -/
def push (w : Word) (s : State) : State := s.setStack (s.stack ++ [w])

/-! ### RUN: halting and raising a fault -/

/-- `raise Fault(cause)`: every field keeps its value but RUN (R8, R224). -/
def raiseFault (cause : Fault) (s : State) : Answer := .next (s.setRun (.fault cause))

/-- The halt of R101 and R226: every field keeps its value but RUN. -/
def halt (cause : HaltCause) (s : State) : State := s.setRun (.halted cause)

/-- The first address instructions are not fetched from, by the ROM (R101). -/
def romBound (s : State) : Nat := romStart + s.romSize + s.config.haltMargin.val

/-- The halt check (R101). -/
def haltCheck (s : State) : Bool := decide (memSize ≤ s.pc.toNat) || decide (romBound s ≤ s.pc.toNat)

/-- The code of RUN (R34). -/
def RunState.code : RunState → Nat
  | .running => 0
  | .awaitingKey _ _ => 1
  | .halted _ => 2
  | .fault _ => 3

/-- The code of a halt cause (R221). -/
def HaltCause.code : HaltCause → Nat
  | .pcExhausted => 1
  | .quit => 2

/-- The code of a fault cause (R221). -/
def Fault.code : Fault → Nat
  | .stackUnderflow => 3
  | .stackOverflow => 4
  | .fetchOutOfRange => 5
  | .memOutOfRange => 6

/-- Whether RUN is Running or AwaitingKey, where ticks, key events and quit are enabled (R229). -/
def State.active (s : State) : Bool :=
  match s.run with
  | .running => true
  | .awaitingKey _ _ => true
  | .halted _ => false
  | .fault _ => false

/-! ### PC: the classes of R102 -/

/-- PC class `advance`: `PC <- PC + 2`. -/
def advance (s : State) : State := s.setPc (s.pc + 2)

/-- The execute phase of a skip: `if c: SKIP <- 1` (R120). -/
def skipWhen (c : Bool) (s : State) : State := if c then s.setSkip true else s

/-- PC class `skip`: `PC <- PC + 2`, and once more with SKIP cleared when SKIP = 1 (R100, R103). -/
def skipAdvance (s : State) : State :=
  if s.skip then (advance (advance s)).setSkip false else advance s

end Sys2Proof.Machine
end

