-- ==== Sys2Proof/Machine/Flags.lean ====
section
/-! DEFINITION. VF as a flag (R22): what each flag-producing instruction puts there, and the order of its writes
(R140). The collision flag of DXYN is computed with the sprite (`Sprite.lean`). -/

namespace Sys2Proof.Machine

/-- A flag as VF holds it: 1 or 0. -/
def flagByte (b : Bool) : Byte := if b then 1 else 0

/-- The carry of 8XY4: the unmasked sum exceeds 255 (R147). -/
def carryOut (a b : Byte) : Bool := decide (255 < a.toNat + b.toNat)

/-- The not-borrow of 8XY5 and 8XY7: minuend at least subtrahend (R148, R149, R151). -/
def noBorrow (minuend subtrahend : Byte) : Bool := decide (subtrahend.toNat ≤ minuend.toNat)

/-- The bit 8XY6 shifts out: old bit 0 (R150). -/
def shiftedOutLow (a : Byte) : Bool := a.getLsbD 0

/-- The bit 8XYE shifts out: old bit 7 (R152). -/
def shiftedOutHigh (a : Byte) : Bool := a.getLsbD 7

/-- The result to V[x], then the flag to VF, last (R22, R140). -/
def writeWithFlag (x : RegIdx) (result : Byte) (flag : Bool) (s : State) : State :=
  (s.setReg x result).setReg vf (flagByte flag)

/-- The pre-clear of 8XY1, 8XY2, 8XY3: VF is zeroed under `Q_VF_RESET`, before the operands are read (R140, R144). -/
def clearFlagForLogic (s : State) : State := if s.config.vfReset then s.setReg vf 0 else s

end Sys2Proof.Machine
end

