-- ==== Sys2Proof/Machine/Operands.lean ====
section
/-! DEFINITION. The operand forms: what an instruction reads, and the addresses it computes. Registers, DT and
immediates are read as they are (R73); the forms with a rule of their own are here. -/

namespace Sys2Proof.Machine

/-- An address immediate in a 16-bit register (R73). -/
def addressOf (nnn : BitVec 12) : Word := nnn.setWidth 16

/-- The register whose value 8XY6 and 8XYE shift: X under `Q_SHIFT_VX`, else Y (R150, R152). -/
def shiftSource (c : Config) (x y : RegIdx) : RegIdx := if c.shiftVx then x else y

/-- The register BNNN adds: the top nibble of NNN under `Q_JUMP_VX`, else V0 (R107). -/
def jumpRegister (c : Config) (nnn : BitVec 12) : RegIdx :=
  if c.jumpVx then (nnn.extractLsb' 8 4).toFin else 0

/-- The target of BNNN: NNN and the register added in 16 bits (R107). -/
def jumpTarget (s : State) (nnn : BitVec 12) : Word :=
  addressOf nnn + (s.reg (jumpRegister s.config nnn)).setWidth 16

/-- Whether V[x] is the code of a held key; a value above 15 names no key (R125, R126). -/
def keyHeld (s : State) (x : RegIdx) : Bool :=
  decide ((s.reg x).toNat ≤ 15) && s.keys.getLsbD (s.reg x).toNat

/-- The keys held, the source's `pressed_keys()` (R33, R236). -/
def pressedKeys (s : State) : List KeyCode := (List.finRange 16).filter fun k => s.keys.getLsbD k.val

/-- The address the memory instructions use: I, over the natural numbers (R51, R170). -/
def dataAddress (s : State) : Nat := s.i.toNat

/-- `I <- (I + b) mod 65536` (R172, R178). -/
def indexPlus (s : State) (b : Byte) : Word := s.i + b.setWidth 16

/-- The address of the glyph of a digit: `FONT_BASE + 5 * b`, with all 8 bits of `b` (R173). -/
def glyphAddress (b : Byte) : Word := BitVec.ofNat 16 (fontBase + 5 * b.toNat)

/-- The hundreds, tens and ones of a byte (R174). -/
def bcdDigits (b : Byte) : List Byte :=
  [BitVec.ofNat 8 (b.toNat / 100), BitVec.ofNat 8 (b.toNat / 10 % 10), BitVec.ofNat 8 (b.toNat % 10)]

/-- How many registers V[0..X] are (R176, R177). -/
def regCount (x : RegIdx) : Nat := x.val + 1

/-- The values of V[0..X] (R176). -/
def firstRegs (s : State) (x : RegIdx) : List Byte := s.v.toList.take (regCount x)

/-- V with V[0..X] loaded from memory, the others as they were (R177). -/
def loadedRegs (s : State) (x : RegIdx) : Vector Byte 16 :=
  Vector.ofFn fun r => if r.val ≤ x.val then s.readByte (dataAddress s + r.val) else s.reg r

/-- I after FX55 and FX65: past the last byte under `Q_INC_I`, else as it was (R176, R177). -/
def indexAfter (s : State) (x : RegIdx) : Word :=
  if s.config.incI then s.i + BitVec.ofNat 16 (regCount x) else s.i

end Sys2Proof.Machine
end

