-- ==== Sys2Proof/Machine/Alu.lean ====
section
/-! DEFINITION. Register load, arithmetic, logic, shift and random: 6XNN, 7XNN, 8XY0 to 8XY7, 8XYE, CXNN
(`42_load_alu.md`). All advance PC and none faults. -/

namespace Sys2Proof.Machine

/-- A result with no flag: V[x] is written and PC advances (R140). -/
def writeAndAdvance (x : RegIdx) (result : Byte) (s : State) : Answer := .next (advance (s.setReg x result))

/-- A result and a flag: V[x] is written, VF last, and PC advances (R140). -/
def writeFlagAndAdvance (x : RegIdx) (result : Byte) (flag : Bool) (s : State) : Answer :=
  .next (advance (writeWithFlag x result flag s))

/-- A bitwise operation, after the pre-clear of VF (R140, R144). -/
def logicOp (f : Byte → Byte → Byte) (x y : RegIdx) (s : State) : Answer :=
  let s := clearFlagForLogic s
  writeAndAdvance x (f (s.reg x) (s.reg y)) s

/-- 6XNN (R141). -/
def execLdImm (x : RegIdx) (nn : Byte) (s : State) : Answer := writeAndAdvance x nn s

/-- 7XNN (R142): the sum modulo 256, no flag. -/
def execAddImm (x : RegIdx) (nn : Byte) (s : State) : Answer := writeAndAdvance x (s.reg x + nn) s

/-- 8XY0 (R143). -/
def execLdReg (x y : RegIdx) (s : State) : Answer := writeAndAdvance x (s.reg y) s

/-- 8XY1 (R144). -/
def execOrReg (x y : RegIdx) (s : State) : Answer := logicOp (fun a b => a ||| b) x y s

/-- 8XY2 (R145). -/
def execAndReg (x y : RegIdx) (s : State) : Answer := logicOp (fun a b => a &&& b) x y s

/-- 8XY3 (R146). -/
def execXorReg (x y : RegIdx) (s : State) : Answer := logicOp (fun a b => a ^^^ b) x y s

/-- 8XY4 (R147): the sum modulo 256, VF = carry. -/
def execAddReg (x y : RegIdx) (s : State) : Answer :=
  writeFlagAndAdvance x (s.reg x + s.reg y) (carryOut (s.reg x) (s.reg y)) s

/-- 8XY5 (R148): V[X] - V[Y] modulo 256, VF = no borrow. -/
def execSubReg (x y : RegIdx) (s : State) : Answer :=
  writeFlagAndAdvance x (s.reg x - s.reg y) (noBorrow (s.reg x) (s.reg y)) s

/-- 8XY6 (R150): the source shifted right by one, VF = old bit 0. -/
def execShr (x y : RegIdx) (s : State) : Answer :=
  let a := s.reg (shiftSource s.config x y)
  writeFlagAndAdvance x (a >>> 1) (shiftedOutLow a) s

/-- 8XY7 (R151): V[Y] - V[X] modulo 256, VF = no borrow. -/
def execSubnReg (x y : RegIdx) (s : State) : Answer :=
  writeFlagAndAdvance x (s.reg y - s.reg x) (noBorrow (s.reg y) (s.reg x)) s

/-- 8XYE (R152): the source shifted left by one, VF = old bit 7. -/
def execShl (x y : RegIdx) (s : State) : Answer :=
  let a := s.reg (shiftSource s.config x y)
  writeFlagAndAdvance x (a <<< 1) (shiftedOutHigh a) s

/-- CXNN with the draw `r` (R153). -/
def rndWith (r : Byte) (x : RegIdx) (nn : Byte) (s : State) : Answer := writeAndAdvance x (r &&& nn) s.countDraw

/-- CXNN (R153): the draw is the next free value (log 6). -/
def execRnd (x : RegIdx) (nn : Byte) (s : State) : Answer := rndWith (Config.draw s.draws) x nn s

end Sys2Proof.Machine
end

