-- ==== Sys2Proof/Machine/Control.lean ====
section
/-! DEFINITION. Control flow: 00EE, 0NNN, 1NNN, 2NNN, BNNN and the unrecognised words (`40_control_flow.md`). -/

namespace Sys2Proof.Machine

/-- A recognised or unrecognised word that does nothing but log itself: one `Log` event, then `advance` (R225). -/
def logAndAdvance (kind : LogKind) (op : Word) (s : State) : State := advance (s.emit [.log kind s.pc op])

/-- 00EE (R108): the top of the stack goes to PC; an empty stack faults. -/
def execRet (s : State) : Answer :=
  match s.stack.getLast? with
  | none => raiseFault .stackUnderflow s
  | some top => .next ((s.setStack s.stack.dropLast).setPc top)

/-- 0NNN (R104): a logged no-op. -/
def execSys (nnn : BitVec 12) (s : State) : Answer := .next (logAndAdvance .legacyCall (encode (.sys nnn)) s)

/-- 1NNN (R105). -/
def execJp (nnn : BitVec 12) (s : State) : Answer := .next (s.setPc (addressOf nnn))

/-- 2NNN (R106): the address of the next instruction is pushed; a full stack faults. -/
def execCall (nnn : BitVec 12) (s : State) : Answer :=
  if stackFull s then raiseFault .stackOverflow s
  else .next ((push (s.pc + 2) s).setPc (addressOf nnn))

/-- BNNN (R107). -/
def execJpV0 (nnn : BitVec 12) (s : State) : Answer := .next (s.setPc (jumpTarget s nnn))

/-- A word that matches no pattern (R109): a logged no-op. -/
def execUnrecognised (w : Word) (s : State) : Answer := .next (logAndAdvance .unrecognised w s)

end Sys2Proof.Machine
end

