-- ==== Sys2Proof/Machine/Index.lean ====
section
/-! DEFINITION. The index register and memory: ANNN, FX1E, FX29, FX33, FX55, FX65 (`43_index_memory.md`). -/

namespace Sys2Proof.Machine

/-- The range check of the memory instructions, before anything changes: `n` bytes from I on, else the fault (R56,
R170). -/
def withRange (n : Nat) (s t : State) : Answer :=
  if inMemory (dataAddress s) n then .next t else raiseFault .memOutOfRange s

/-- ANNN (R171). -/
def execLdI (nnn : BitVec 12) (s : State) : Answer := .next (advance (s.setI (addressOf nnn)))

/-- FX1E (R172): modulo 65536, no flag. -/
def execAddI (x : RegIdx) (s : State) : Answer := .next (advance (s.setI (indexPlus s (s.reg x))))

/-- FX29 (R173). -/
def execLdF (x : RegIdx) (s : State) : Answer := .next (advance (s.setI (glyphAddress (s.reg x))))

/-- FX33 (R174): the three decimal digits, most significant first. -/
def execLdB (x : RegIdx) (s : State) : Answer :=
  withRange 3 s (advance (s.storeBytes (dataAddress s) (bcdDigits (s.reg x))))

/-- FX55 (R176). -/
def execLdMemVx (x : RegIdx) (s : State) : Answer :=
  withRange (regCount x) s
    (advance ((s.storeBytes (dataAddress s) (firstRegs s x)).setI (indexAfter s x)))

/-- FX65 (R177). -/
def execLdVxMem (x : RegIdx) (s : State) : Answer :=
  withRange (regCount x) s (advance ((s.setRegs (loadedRegs s x)).setI (indexAfter s x)))

end Sys2Proof.Machine
end

