-- ==== Sys2Proof/Machine/Sprite.lean ====
section
/-! DEFINITION. Sprites: which pixels a sprite toggles (R191, R193) and the XOR draw with its collision flag and its
events (R194, R195). -/

namespace Sys2Proof.Machine

/-- The pixel at column `px` and row `py`, each a natural number: itself on the screen; off the screen, nothing when
sprites are clipped and the wrapped pixel when they are not (R191). On the screen both settings of `Q_CLIP` agree, so
the flag is read only off it (log 17). -/
def spriteTarget (clip : Bool) (px py : Nat) : Option (Fin 64 × Fin 32) :=
  if h : px < 64 ∧ py < 32 then some (⟨px, h.1⟩, ⟨py, h.2⟩)
  else if clip then none
  else some (⟨px % 64, Nat.mod_lt _ (by decide)⟩, ⟨py % 32, Nat.mod_lt _ (by decide)⟩)

/-- The pixels one sprite row toggles, from left to right: bit 7 is the leftmost column (R193). -/
def rowTargets (clip : Bool) (x0 py : Nat) (b : Byte) : List (Fin 64 × Fin 32) :=
  (List.range 8).filterMap fun col => if b.getLsbD (7 - col) then spriteTarget clip (x0 + col) py else none

/-- The pixels a sprite toggles, in row-major order from row `py` on (R191, R193, R194). -/
def spriteTargets (clip : Bool) (x0 : Nat) : Nat → List Byte → List (Fin 64 × Fin 32)
  | _, [] => []
  | py, b :: bs => rowTargets clip x0 py b ++ spriteTargets clip x0 (py + 1) bs

/-- A draw in progress: the screen, whether a pixel has gone from on to off, and the events so far. -/
structure Draw where
  fb        : Framebuffer
  collision : Bool
  events    : List OutputEvent
  deriving DecidableEq, Repr

/-- One pixel toggled: the collision is accumulated and the new value reported (R194). -/
def togglePixel (d : Draw) (p : Fin 64 × Fin 32) : Draw :=
  let on := pixelAt d.fb p.1 p.2
  { fb := setPixelAt d.fb p.1 p.2 (!on)
    collision := d.collision || on
    events := d.events ++ [.setPixel p.1 p.2 (!on)] }

/-- The draw of the pixels in order; the collision starts at 0 (R194, R195). -/
def drawPixels (fb : Framebuffer) (ps : List (Fin 64 × Fin 32)) : Draw :=
  ps.foldl togglePixel { fb := fb, collision := false, events := [] }

end Sys2Proof.Machine
end

