-- ==== Sys2Proof/Machine/Display.lean ====
section
/-! DEFINITION. The framebuffer: 00E0, DXYN (`44_display.md`). -/

namespace Sys2Proof.Machine

/-- The pixels DXYN toggles in a state: the N rows from I on at column V[X], row V[Y] (R191, R193, R194). -/
def drawTargets (x y : RegIdx) (n : Fin 16) (s : State) : List (Fin 64 × Fin 32) :=
  spriteTargets s.config.clip (s.reg x).toNat (s.reg y).toNat (s.loadBytes (dataAddress s) n.val)

/-- The screen, then VF, then the events of a draw (R194, R197). -/
def finishDraw (d : Draw) (s : State) : State :=
  ((s.setFb d.fb).setReg vf (flagByte d.collision)).emit (d.events ++ [.present])

/-- 00E0 (R192). -/
def execCls (s : State) : Answer := .next (advance ((s.setFb blankScreen).emit [.clear, .present]))

/-- DXYN (R194). -/
def execDrw (x y : RegIdx) (n : Fin 16) (s : State) : Answer :=
  withRange n.val s (advance (finishDraw (drawPixels s.fb (drawTargets x y n s)) s))

end Sys2Proof.Machine
end

