-- ==== Sys2Proof/Machine/Skips.lean ====
section
/-! DEFINITION. The conditional skips: 3XNN, 4XNN, 5XY0, 9XY0, EX9E, EXA1 (`41_skips.md`). -/

namespace Sys2Proof.Machine

/-- A skip on a condition: SKIP is set when it holds, and the PC class `skip` follows (R103, R120). -/
def skipOn (c : Bool) (s : State) : Answer := .next (skipAdvance (skipWhen c s))

/-- 3XNN (R121). -/
def execSeImm (x : RegIdx) (nn : Byte) (s : State) : Answer := skipOn (s.reg x == nn) s

/-- 4XNN (R122). -/
def execSneImm (x : RegIdx) (nn : Byte) (s : State) : Answer := skipOn (s.reg x != nn) s

/-- 5XY0 (R123). -/
def execSeReg (x y : RegIdx) (s : State) : Answer := skipOn (s.reg x == s.reg y) s

/-- 9XY0 (R124). -/
def execSneReg (x y : RegIdx) (s : State) : Answer := skipOn (s.reg x != s.reg y) s

/-- EX9E (R125). -/
def execSkp (x : RegIdx) (s : State) : Answer := skipOn (keyHeld s x) s

/-- EXA1 (R126). -/
def execSknp (x : RegIdx) (s : State) : Answer := skipOn (!keyHeld s x) s

end Sys2Proof.Machine
end

