-- ==== Sys2Proof/Machine/Timers.lean ====
section
/-! DEFINITION. The timer and keypad instructions: FX07, FX0A, FX15, FX18 (`45_timers_keys.md`). -/

namespace Sys2Proof.Machine

/-- FX07 (R201). -/
def execLdVxDt (x : RegIdx) (s : State) : Answer := .next (advance (s.setReg x s.dt))

/-- FX0A (R203): the engine enters the wait; PC stays, class `wait` (R102). -/
def execLdVxK (x : RegIdx) (s : State) : Answer := .next (s.setRun (.awaitingKey x none))

/-- FX15 (R202). -/
def execLdDtVx (x : RegIdx) (s : State) : Answer := .next (advance (s.setDt (s.reg x)))

/-- FX18 (R205): SND follows at the next tick. -/
def execLdStVx (x : RegIdx) (s : State) : Answer := .next (advance (s.setSt (s.reg x)))

end Sys2Proof.Machine
end

