-- ==== Sys2Proof/Machine/Events.lean ====
section
/-! DEFINITION. The transitions of the other two agents: the timer tick (R208), the key events (R211, R212) and the
quit (R226). Each is enabled when RUN is Running or AwaitingKey and changes nothing otherwise (R222, R229). -/

namespace Sys2Proof.Machine

/-- A timer decremented by one, never below 0 (R207). -/
def countDown (b : Byte) : Byte := if b = 0 then 0 else b - 1

/-- SND set from ST, with its audio event (R208, R209). -/
def setSoundLevel (s : State) : State :=
  if 0 < s.st.toNat then (s.setSnd true).emit [.playLoop] else (s.setSnd false).emit [.stop]

/-- TimerTick (R208). -/
def timerTick (s : State) : State :=
  if s.active then setSoundLevel ((s.setDt (countDown s.dt)).setSt (countDown s.st)) else s

/-- KEYS with bit `k` alone. -/
def keyMask (k : KeyCode) : BitVec 16 := 1#16 <<< k.val

/-- The latch of a pending wait: the first key-down after its start (R204, R211). -/
def latchKey (k : KeyCode) (s : State) : State :=
  match s.run with
  | .awaitingKey x none => s.setRun (.awaitingKey x (some k))
  | .awaitingKey _ (some _) => s
  | .running => s
  | .halted _ => s
  | .fault _ => s

/-- KeyDown(k) (R211): a repeat of a held key has no effect. -/
def keyDown (k : KeyCode) (s : State) : State :=
  if s.active then
    if s.keys.getLsbD k.val then s else latchKey k (s.setKeys (s.keys ||| keyMask k))
  else s

/-- The end of a pending wait by the release of the latched key: V[x] <- k, PC advances, RUN <- Running (R204,
R212). -/
def resolveWait (k : KeyCode) (s : State) : State :=
  match s.run with
  | .awaitingKey x (some k') =>
    if k' = k then ((advance (s.setReg x (BitVec.ofNat 8 k.val))).setRun .running) else s
  | .awaitingKey _ none => s
  | .running => s
  | .halted _ => s
  | .fault _ => s

/-- KeyUp(k) (R212): a release of a key not held has no effect. -/
def keyUp (k : KeyCode) (s : State) : State :=
  if s.active then
    if s.keys.getLsbD k.val then resolveWait k (s.setKeys (s.keys &&& ~~~ keyMask k)) else s
  else s

/-- Quit (R226): nothing changes but RUN. -/
def quit (s : State) : State := if s.active then halt .quit s else s

end Sys2Proof.Machine
end

