-- ==== Sys2Proof/Machine/Engine.lean ====
section
/-! DEFINITION. The engine step (R100), and the transition the environment's schedule names (R265). -/

namespace Sys2Proof.Machine

/-- Phases 1 to 3 of an engine step: fetch, decode, execute with the PC update (R100); the fetch may fault (R56). -/
def fetchAndExec (s : State) : Answer :=
  match fetchWord s with
  | none => raiseFault .fetchOutOfRange s
  | some w => exec (decodeWord w) s

/-- One engine step (R100): the halt check first (R101, R227). It is enabled only when RUN = Running; in the other
run states the engine takes no step and nothing changes (R206, R222). -/
def engineStep (s : State) : Answer :=
  match s.run with
  | .running => if haltCheck s then .next (halt .pcExhausted s) else fetchAndExec s
  | .awaitingKey _ _ => .next s
  | .halted _ => .next s
  | .fault _ => .next s

/-- One atomic transition of any agent (R10, R229). -/
def transition (t : Transition) (s : State) : Answer :=
  match t with
  | .engineStep => engineStep s
  | .timerTick => .next (timerTick s)
  | .keyDown k => .next (keyDown k s)
  | .keyUp k => .next (keyUp k s)
  | .quit => .next (quit s)

/-- The next transition of the run: the first of the schedule, which is taken off it; an engine step when the schedule
names none (R265; log 7, log 8). -/
def nextTransition (s : State) : Answer :=
  match s.schedule with
  | [] => engineStep s
  | t :: rest => transition t (s.setSchedule rest)

/-- The instruction word that the engine fetches next, put at PC (log 22): when PC has no second byte, PC is first set
to `ROM_START`. ROM_SIZE is raised to reach past the word, so that the halt check lets it be fetched; RUN is Running
and no other agent's transition is due. -/
def placeWord (w : Word) (s : State) : State :=
  let p := if s.pc.toNat + 1 < memSize then s.pc else BitVec.ofNat 16 romStart
  (((((s.setPc p).storeBytes p.toNat (bytesOfWord w)).setRomSize (max s.romSize (p.toNat + 2 - romStart))).setRun
    .running).setSchedule [])

end Sys2Proof.Machine
end

