-- ==== Sys2Proof/Machine/Step.lean ====
section
/-! DEFINITION. The step of the machine: one atomic transition (R265). -/

namespace Sys2Proof.Machine

/-- One step: the next transition of the run. -/
def step (s : State) : Host.Outcome State Fault Refusal := Sys2Proof.Machine.nextTransition s

/-- The state with a word of spec/opcode_table.json's numbering stored where the engine fetches next. -/
def State.withFetchWord (s : State) (nbits w : Nat) : State := placeWord (tableWord nbits w) s

end Sys2Proof.Machine
end

