-- ==== Sys2Proof/Machine/Boot.lean ====
section
/-! DEFINITION. Construction and ROM load (R250 to R257): how a program comes into the machine, before its first
transition (R253). -/

namespace Sys2Proof.Machine

/-- Construct (R250): the reset state with the configuration, the font and the held keys the host gives. -/
def construct (config : Config) (font : Vector Byte 80) (keys : BitVec 16) : State :=
  { State.reset with config := config, mem := Memory.writeList [] fontBase font.toList, keys := keys }

/-- LoadROM (R255): the bytes at `ROM_START` and their length; a ROM that does not fit is refused (R256). -/
def loadRom (bytes : List Byte) (s : State) : Answer :=
  if bytes.length ≤ romRoom then .next ((s.storeBytes romStart bytes).setRomSize bytes.length)
  else .refused .romTooLarge

/-- What the host gives a run (R7, R253). -/
structure Launch where
  config : Config
  font   : Vector Byte 80
  keys   : BitVec 16
  rom    : List Byte
  deriving DecidableEq, Repr

/-- The launch state: Construct, then LoadROM, once (R253). -/
def launch (l : Launch) : Answer := loadRom l.rom (construct l.config l.font l.keys)

end Sys2Proof.Machine
end

