-- ==== Sys2Proof/Machine/Input.lean ====
section
/-! DEFINITION. The input mapper (R2, R210): host keys to keypad codes. The map is a parameter outside the core
(R7, log 26); the core sees the key events it produces. -/

namespace Sys2Proof.Machine

/-- The identifier of a key of the host. -/
abbrev HostKey := Nat

/-- `HOSTKEYMAP`: the host key of each keypad code 0x0 to 0xF. -/
abbrev HostKeyMap := Vector HostKey 16

/-- The map is a bijection from its host keys to the codes: no host key has two codes (R210). -/
def HostKeyMap.wf (m : HostKeyMap) : Bool := decide (∀ j k : KeyCode, m[j.val] = m[k.val] → j = k)

/-- The keypad code of a host key, if it has one (R210). -/
def keypadCode (m : HostKeyMap) (h : HostKey) : Option KeyCode := (List.finRange 16).find? fun k => m[k.val] == h

/-- The transition a press of a host key is; a host key with no code produces none (R210). -/
def hostPress (m : HostKeyMap) (h : HostKey) : Option Transition := (keypadCode m h).map .keyDown

/-- The transition a release of a host key is (R210). -/
def hostRelease (m : HostKeyMap) (h : HostKey) : Option Transition := (keypadCode m h).map .keyUp

end Sys2Proof.Machine
end

