-- ==== Sys2Proof/Safety.lean ====
section
/-! DEFINITION. The terms claims are stated in: what a step leaves unchanged, which fields an instruction may write
(R42), the invariants of R41 and R221, terminal states and fault-free runs. -/

namespace Sys2Proof.Machine

/-! ### Frames -/

/-- The fields of State, by name. -/
inductive Field where
  | v | i | pc | stack | dt | st | snd | mem | fb | keys | run | skip | romSize | config | draws | schedule | trace
  deriving DecidableEq, Repr

/-- A field is the same in two states; memory and registers are compared through their reads. -/
def keeps (s t : State) : Field → Prop
  | .v => ∀ r : RegIdx, t.reg r = s.reg r
  | .i => t.i = s.i
  | .pc => t.pc = s.pc
  | .stack => t.stack = s.stack
  | .dt => t.dt = s.dt
  | .st => t.st = s.st
  | .snd => t.snd = s.snd
  | .mem => ∀ a : Nat, t.readByte a = s.readByte a
  | .fb => ∀ (x : Fin 64) (y : Fin 32), pixelAt t.fb x y = pixelAt s.fb x y
  | .keys => t.keys = s.keys
  | .run => t.run = s.run
  | .skip => t.skip = s.skip
  | .romSize => t.romSize = s.romSize
  | .config => t.config = s.config
  | .draws => t.draws = s.draws
  | .schedule => t.schedule = s.schedule
  | .trace => t.trace = s.trace

/-- Every field but those listed is the same in two states. -/
def changesOnly (fs : List Field) (s t : State) : Prop := ∀ f : Field, f ∉ fs → keeps s t f

/-- The fields an instruction may change in its engine step, by R42 (RUN only by a fault or by FX0A; `trace` by the
events it emits; `draws` by CXNN). -/
def mayWrite : Instr → List Field
  | .cls => [.fb, .pc, .trace]
  | .ret => [.stack, .pc, .run]
  | .sys _ => [.pc, .trace]
  | .jp _ => [.pc]
  | .call _ => [.stack, .pc, .run]
  | .seImm _ _ | .sneImm _ _ | .seReg _ _ | .sneReg _ _ | .skp _ | .sknp _ => [.pc, .skip]
  | .ldImm _ _ | .addImm _ _ | .ldReg _ _ | .orReg _ _ | .andReg _ _ | .xorReg _ _ | .addReg _ _ | .subReg _ _
  | .shr _ _ | .subnReg _ _ | .shl _ _ | .ldVxDt _ => [.v, .pc]
  | .ldI _ | .addI _ | .ldF _ => [.i, .pc]
  | .jpV0 _ => [.pc]
  | .rnd _ _ => [.v, .pc, .draws]
  | .drw _ _ _ => [.v, .fb, .pc, .run, .trace]
  | .ldVxK _ => [.run]
  | .ldDtVx _ => [.dt, .pc]
  | .ldStVx _ => [.st, .pc]
  | .ldB _ => [.mem, .pc, .run]
  | .ldMemVx _ => [.mem, .i, .pc, .run]
  | .ldVxMem _ => [.v, .i, .pc, .run]
  | .unrecognised _ => [.pc, .trace]

/-- Whether an instruction may change register `r`: its destination, VF where it writes a flag (R22), VF where
`Q_VF_RESET` clears it (R144). -/
def mayWriteReg (c : Config) (i : Instr) (r : RegIdx) : Bool :=
  match i with
  | .ldImm x _ | .addImm x _ | .ldReg x _ | .rnd x _ | .ldVxDt x => r == x
  | .orReg x _ | .andReg x _ | .xorReg x _ => r == x || (c.vfReset && r == vf)
  | .addReg x _ | .subReg x _ | .shr x _ | .subnReg x _ | .shl x _ => r == x || r == vf
  | .drw _ _ _ => r == vf
  | .ldVxMem x => decide (r.val ≤ x.val)
  | .cls | .ret | .sys _ | .jp _ | .call _ | .seImm _ _ | .sneImm _ _ | .seReg _ _ | .sneReg _ _ | .ldI _ | .jpV0 _
  | .skp _ | .sknp _ | .ldVxK _ | .ldDtVx _ | .ldStVx _ | .addI _ | .ldF _ | .ldB _ | .ldMemVx _
  | .unrecognised _ => false

/-- How many bytes of memory from I on an instruction uses as data (R56, R57). -/
def dataBytes : Instr → Nat
  | .drw _ _ n => n.val
  | .ldB _ => 3
  | .ldMemVx x | .ldVxMem x => x.val + 1
  | .cls | .ret | .sys _ | .jp _ | .call _ | .seImm _ _ | .sneImm _ _ | .seReg _ _ | .sneReg _ _ | .ldImm _ _
  | .addImm _ _ | .ldReg _ _ | .orReg _ _ | .andReg _ _ | .xorReg _ _ | .addReg _ _ | .subReg _ _ | .shr _ _
  | .subnReg _ _ | .shl _ _ | .ldI _ | .jpV0 _ | .rnd _ _ | .skp _ | .sknp _ | .ldVxDt _ | .ldVxK _ | .ldDtVx _
  | .ldStVx _ | .addI _ | .ldF _ | .unrecognised _ => 0

/-! ### Sprites, as R191 and R193 put them -/

/-- The sprite bit of a row and a column: bit 7 of the row's byte is column 0 (R193). -/
def spriteBit (s : State) (row col : Nat) : Bool := (s.readByte (dataAddress s + row)).getLsbD (7 - col)

/-- Whether the sprite pixel of a row and a column of a sprite placed at (`x0`, `y0`) lands on the pixel
(`px`, `py`): wrapped, or when clipped only where it is on the screen (R191). -/
def landsOn (clip : Bool) (x0 y0 row col : Nat) (px : Fin 64) (py : Fin 32) : Prop :=
  if clip then px.val = x0 + col ∧ py.val = y0 + row
  else px.val = (x0 + col) % 64 ∧ py.val = (y0 + row) % 32

/-- Whether DXYN toggles a pixel: a sprite bit of 1 lands on it (R194). -/
def toggles (x y : RegIdx) (n : Fin 16) (s : State) (px : Fin 64) (py : Fin 32) : Prop :=
  ∃ row < n.val, ∃ col < 8, spriteBit s row col = true ∧
    landsOn s.config.clip (s.reg x).toNat (s.reg y).toNat row col px py

/-! ### Invariants -/

/-- R41, with the bounds of R25: what every reachable state keeps. -/
structure State.Inv (s : State) : Prop where
  /-- MEM is in canonical form. -/
  memory  : Memory.wf s.mem = true
  /-- SKIP = 0 between transitions (R35). -/
  skip    : s.skip = false
  /-- ROM_SIZE is 0 to 3584 (R36). -/
  rom     : s.romSize ≤ romRoom
  /-- PC never wraps: BNNN gives the largest value (R25). -/
  pc      : s.pc.toNat ≤ 0x10FE
  /-- A return address is at most 4097 (R25). -/
  stack   : ∀ a ∈ s.stack, a.toNat ≤ 4097
  /-- A bounded stack holds at most `STACK_DEPTH` entries (R26). -/
  depth   : ∀ d, s.config.stackDepth = some d → s.stack.length ≤ d
  /-- A pending wait is at its own FX0A (R41). -/
  waiting : ∀ x latch, s.run = .awaitingKey x latch → fetchWord s = some (encode (.ldVxK x))
  /-- A latched key is held (R204, R211, R212). -/
  latched : ∀ x k, s.run = .awaitingKey x (some k) → s.keys.getLsbD k.val = true

/-- R221: what the fields of a terminal state record about its cause. -/
structure State.CauseRecorded (s : State) : Prop where
  /-- PC keeps the value that halted the run. -/
  exhausted : s.run = .halted .pcExhausted → haltCheck s = true
  /-- A fault is raised only where the halt check did not fire (R227). -/
  unhalted  : ∀ c, s.run = .fault c → haltCheck s = false
  /-- PC is at a 00EE and the stack is empty. -/
  underflow : s.run = .fault .stackUnderflow → fetchWord s = some (encode .ret) ∧ s.stack = []
  /-- PC is at a 2NNN and the bounded stack is full. -/
  overflow  : s.run = .fault .stackOverflow →
    stackFull s = true ∧ ∃ nnn, fetchWord s = some (encode (.call nnn))
  /-- PC = 4095. -/
  fetch     : s.run = .fault .fetchOutOfRange → s.pc.toNat = 4095
  /-- PC is at an instruction whose range from I leaves memory. -/
  range     : s.run = .fault .memOutOfRange →
    ∃ i, fetchWord s = some (encode i) ∧ memSize < dataAddress s + dataBytes i ∧ 0 < dataBytes i

/-! ### Runs -/

/-- RUN is Halted or Fault: the run has ended (R222, R268). -/
def State.terminal (s : State) : Bool := !s.active

/-- RUN is no fault; R224: a claim about a program takes "no fault" as part of what it proves. -/
def State.faultFree (s : State) : Prop := ∀ c, s.run ≠ .fault c

/-- `t` is reached from `s` in some number of steps. -/
def Reaches (s t : State) : Prop := ∃ n, Host.Core.run Sys2Proof.core n s = .next t

/-- A safe run from `s`: no state it reaches is a fault (R224). -/
def SafeFrom (s : State) : Prop := ∀ t, Reaches s t → t.faultFree

/-- The transitions of a list made one after another, whatever the schedule holds. -/
def runTransitions : List Transition → State → Answer
  | [], s => .next s
  | t :: ts, s =>
    match transition t s with
    | .next s' => runTransitions ts s'
    | .fault c => .fault c
    | .refused r => .refused r

end Sys2Proof.Machine
end

