-- ==== Sys2Proof/Certificates/Slice0/Obligations.lean ====
section
/-! DEFINITION. The statements for the provers. Each docstring names the rule it formalises; where a clause rests on a
decision of the spec (D<n>) or on the model's own log, the docstring says so. -/

open Sys2Proof Sys2Proof.Machine

/-! ### Encoding -/

/-- R76, and the words of `95_test_vectors.md` section 2.7: one word of each family decodes to its instruction. -/
def Obligations.SampleWordsDecode : Prop :=
  decodeBytes [0x00, 0xE0] = .ok (.cls, []) ∧
  decodeBytes [0x00, 0xEE] = .ok (.ret, []) ∧
  decodeBytes [0x0F, 0xEE] = .ok (.sys 0xFEE, []) ∧
  decodeBytes [0xBA, 0xBC] = .ok (.jpV0 0xABC, []) ∧
  decodeBytes [0x3C, 0x7F] = .ok (.seImm 0xC 0x7F, []) ∧
  decodeBytes [0xE1, 0xA1] = .ok (.sknp 1, []) ∧
  decodeBytes [0x8A, 0xB4] = .ok (.addReg 0xA 0xB, []) ∧
  decodeBytes [0x8A, 0xB8] = .ok (.unrecognised 0x8AB8, []) ∧
  decodeBytes [0xC1, 0x0F] = .ok (.rnd 1 0x0F, []) ∧
  decodeBytes [0xD1, 0x23] = .ok (.drw 1 2 3, []) ∧
  decodeBytes [0xF1, 0x0A] = .ok (.ldVxK 1, []) ∧
  decodeBytes [0xF1, 0x55] = .ok (.ldMemVx 1, [])

/-- R71, R76, R82: decoding the word of a well-formed instruction gives the instruction, with every operand. -/
def Obligations.DecodeAfterEncode : Prop :=
  ∀ i : Instr, wellFormed i = true → decodeWord (encode i) = i

/-- R75: every one of the 65536 words decodes to a well-formed instruction whose word it is, so no two instructions
share a word and no word is lost. -/
def Obligations.EncodeAfterDecode : Prop :=
  ∀ w : Word, wellFormed (decodeWord w) = true ∧ encode (decodeWord w) = w

/-- R76, R84: the decoder agrees with the first-match reading of the opcode table on every word. -/
def Obligations.DecoderAgreesWithOpcodeTable : Prop :=
  ∀ w : Word, firstRow w = some (decodeWord w).row

/-- R78: the unrecognised words are exactly the five sets of the rule. -/
def Obligations.UnrecognisedWordsAreTheReservedSets : Prop :=
  ∀ w : Word, (∃ u, decodeWord w = .unrecognised u) ↔
    (w.toNat / 4096 = 0x5 ∧ w.toNat % 16 ≠ 0) ∨
    (w.toNat / 4096 = 0x8 ∧ w.toNat % 16 ∈ [0x8, 0x9, 0xA, 0xB, 0xC, 0xD, 0xF]) ∨
    (w.toNat / 4096 = 0x9 ∧ w.toNat % 16 ≠ 0) ∨
    (w.toNat / 4096 = 0xE ∧ w.toNat % 256 ∉ [0x9E, 0xA1]) ∨
    (w.toNat / 4096 = 0xF ∧ w.toNat % 256 ∉ [0x07, 0x0A, 0x15, 0x18, 0x1E, 0x29, 0x33, 0x55, 0x65])

/-! ### The step -/

/-- R54: the fetch joins the byte at PC, in the high bits, and the byte after it; PC may be odd (R55). -/
def Obligations.FetchIsBigEndian : Prop :=
  ∀ s : State, s.pc.toNat + 1 < 4096 →
    ∃ w, fetchWord s = some w ∧
      w.toNat = 256 * (s.readByte s.pc.toNat).toNat + (s.readByte (s.pc.toNat + 1)).toNat

/-- R100: when RUN = Running, PC is below the halt bound and the bytes at PC decode to an instruction, the step is that
instruction's execution; an engine step that the schedule names is taken off the schedule first (log 7). -/
def Obligations.StepRunsDecodedInstruction : Prop :=
  ∀ (s : State) (i : Instr), s.run = .running → s.pc.toNat + 1 < 4096 →
    s.pc.toNat < 0x200 + s.romSize + s.config.haltMargin.val →
    decodeBytes [s.readByte s.pc.toNat, s.readByte (s.pc.toNat + 1)] = .ok (i, []) →
    (s.schedule = [] → step s = exec i s) ∧
    (∀ rest, s.schedule = .engineStep :: rest → step s = exec i (s.setSchedule rest))

/-- R101 with the spec's D2 and D3: at or above the bound an engine step halts the run and changes nothing else. -/
def Obligations.EngineHaltsAtBound : Prop :=
  ∀ s : State, s.run = .running →
    (4096 ≤ s.pc.toNat ∨ 0x200 + s.romSize + s.config.haltMargin.val ≤ s.pc.toNat) →
    ∃ t, engineStep s = .next t ∧ t.run = .halted .pcExhausted ∧ changesOnly [.run] s t

/-- R56, R227 with the spec's D4 and D33: at PC = 4095, below the ROM's bound, the fetch faults and nothing else
changes. -/
def Obligations.FetchAtLastByteFaults : Prop :=
  ∀ s : State, s.run = .running → s.pc.toNat = 4095 → 4095 < 0x200 + s.romSize + s.config.haltMargin.val →
    ∃ t, engineStep s = .next t ∧ t.run = .fault .fetchOutOfRange ∧ changesOnly [.run] s t

/-- R206, R222 with the spec's D21: the engine takes no step while a key is awaited; in a terminal state no transition
changes anything. -/
def Obligations.IdleAndTerminalStatesStay : Prop :=
  (∀ (s : State) (x : RegIdx) (latch : Option KeyCode), s.run = .awaitingKey x latch → engineStep s = .next s) ∧
  (∀ (s : State) (tr : Transition), ((∃ c, s.run = .halted c) ∨ ∃ c, s.run = .fault c) → transition tr s = .next s)

/-- R75, R79, R220, R224: from every state the step answers a next state: no word traps, and a fault of the machine is a
state of it (log 10). -/
def Obligations.EveryStepAnswersNextState : Prop :=
  ∀ s : State, ∃ t, step s = .next t

/-- R10, R265: a run of the machine from a schedule is its transitions made one after another, so every finite
interleaving of the agents is a run (log 7). -/
def Obligations.RunFollowsSchedule : Prop :=
  ∀ (ts : List Transition) (s : State),
    Host.Core.run core ts.length (s.setSchedule ts) = runTransitions ts (s.setSchedule [])

/-! ### Invariants -/

/-- R40, R41, R221: the reset state meets the invariants. -/
def Obligations.ResetMeetsInvariants : Prop :=
  State.reset.Inv ∧ State.reset.CauseRecorded

/-- R41, R253: the launch state of every configuration, font, held keys and ROM meets the invariant. -/
def Obligations.LaunchMeetsInvariant : Prop :=
  ∀ (l : Launch) (t : State), launch l = .next t → t.Inv ∧ t.CauseRecorded

/-- R41, R25: every step keeps the invariant: the memory's form, SKIP = 0, the bounds of PC, ROM_SIZE and the stack, and
what a pending key wait records. -/
def Obligations.StepKeepsInvariant : Prop :=
  ∀ s t : State, s.Inv → step s = .next t → t.Inv

/-- R221, R227: every step keeps the record of the cause: a state that halted or faulted holds the condition that
brought it there. -/
def Obligations.StepKeepsRecordedCause : Prop :=
  ∀ s t : State, s.CauseRecorded → step s = .next t → t.CauseRecorded

/-- R7, R36: no step changes the configuration or ROM_SIZE. -/
def Obligations.StepKeepsConfigurationAndRomSize : Prop :=
  ∀ s t : State, step s = .next t → t.config = s.config ∧ t.romSize = s.romSize

/-- R42: an instruction changes only the state R42 lists for it, and only the registers it names or writes a flag to;
over all instructions and all states. -/
def Obligations.InstructionsWriteOnlyTheirState : Prop :=
  ∀ (i : Instr) (s t : State), exec i s = .next t →
    changesOnly (mayWrite i) s t ∧ ∀ r : RegIdx, mayWriteReg s.config i r = false → t.reg r = s.reg r

/-- R60: the timer tick and the host events never touch MEM, FB, I or the stack. -/
def Obligations.EventsTouchOnlyTheirState : Prop :=
  ∀ (tr : Transition) (s : State), tr ≠ .engineStep →
    ∃ t, transition tr s = .next t ∧ changesOnly [.v, .pc, .dt, .st, .snd, .keys, .run, .trace] s t

/-- R30, R53: in the model's form of MEM, memories that read alike are equal. -/
def Obligations.EqualReadsEqualMemories : Prop :=
  ∀ m m' : Memory, Memory.wf m = true → Memory.wf m' = true →
    (∀ a < 4096, Memory.read m a = Memory.read m' a) → m = m'

/-! ### Reset and load -/

/-- R40, R250 (with the spec's D1 for the cleared memory, D28 for KEYS, D32 for STACK, SND, RUN and SKIP, D15 and D12
for the default font and the quirks): the values reset leaves. Q_CLIP is left out: it is a free value (log 2). -/
def Obligations.ResetValues : Prop :=
  (∀ r : RegIdx, State.reset.reg r = 0) ∧ State.reset.i = 0x200 ∧ State.reset.pc = 0x200 ∧ State.reset.stack = [] ∧
  State.reset.dt = 0 ∧ State.reset.st = 0 ∧ State.reset.snd = false ∧
  (∀ x y, pixelAt State.reset.fb x y = false) ∧ State.reset.keys = 0 ∧ State.reset.run = .running ∧
  State.reset.skip = false ∧ State.reset.romSize = 0 ∧
  (∀ a < 4096, (a < 0x050 ∨ 0x09F < a) → State.reset.readByte a = 0) ∧
  State.reset.loadBytes 0x050 5 = [0xF0, 0x90, 0x90, 0x90, 0xF0] ∧
  State.reset.loadBytes 0x09B 5 = [0xF0, 0x80, 0xF0, 0x80, 0x80] ∧
  State.reset.config.vfReset = false ∧ State.reset.config.incI = false ∧ State.reset.config.shiftVx = true ∧
  State.reset.config.jumpVx = false ∧ State.reset.config.haltMargin = 1 ∧ State.reset.config.stackDepth = none

/-- R65, R250, R255, R256 (with the spec's D1 and D22): the launch state is reset with the configuration and the keys of
the host; memory is the font from 0x050, the ROM from 0x200 and 0 elsewhere; a ROM that does not fit is refused. -/
def Obligations.LaunchMemoryMap : Prop :=
  (∀ l : Launch, l.rom.length ≤ 3584 → ∃ t, launch l = .next t ∧
    t.romSize = l.rom.length ∧ t.config = l.config ∧ t.keys = l.keys ∧
    changesOnly [.mem, .romSize, .config, .keys] State.reset t ∧
    ∀ a < 4096, t.readByte a =
      if 0x200 ≤ a ∧ a < 0x200 + l.rom.length then l.rom.getD (a - 0x200) 0
      else if 0x050 ≤ a ∧ a ≤ 0x09F then l.font.toList.getD (a - 0x050) 0
      else 0) ∧
  (∀ l : Launch, 3584 < l.rom.length → launch l = .refused .romTooLarge)

/-! ### Control flow -/

/-- R104, R109: a legacy call and an unrecognised word log themselves at their address, advance PC by 2 and change
nothing else; the logged word of a legacy call is 0NNN. -/
def Obligations.LegacyAndUnrecognisedWordsAreLoggedNoOps : Prop :=
  (∀ (nnn : BitVec 12) (s : State), ∃ t, exec (.sys nnn) s = .next t ∧ t.pc = s.pc + 2 ∧
    t.trace = s.trace ++ [.log .legacyCall s.pc (nnn.setWidth 16)] ∧ changesOnly [.pc, .trace] s t) ∧
  (∀ (w : Word) (s : State), ∃ t, exec (.unrecognised w) s = .next t ∧ t.pc = s.pc + 2 ∧
    t.trace = s.trace ++ [.log .unrecognised s.pc w] ∧ changesOnly [.pc, .trace] s t)

/-- R105. -/
def Obligations.JumpSetsPc : Prop :=
  ∀ (nnn : BitVec 12) (s : State), ∃ t, exec (.jp nnn) s = .next t ∧ t.pc.toNat = nnn.toNat ∧ changesOnly [.pc] s t

/-- R107 (with the spec's D9 and D13): the target is NNN plus V0, or plus the register of NNN's top nibble under
`Q_JUMP_VX`, not reduced to 12 bits. -/
def Obligations.JumpWithOffset : Prop :=
  ∀ (nnn : BitVec 12) (r : RegIdx) (s : State), (r.val = if s.config.jumpVx then nnn.toNat / 256 else 0) →
    ∃ t, exec (.jpV0 nnn) s = .next t ∧ t.pc.toNat = nnn.toNat + (s.reg r).toNat ∧ changesOnly [.pc] s t

/-- R106 (with the spec's D6 for the bound): a call that does not overflow pushes PC + 2 on top and goes to NNN. -/
def Obligations.CallPushesReturnAddress : Prop :=
  ∀ (nnn : BitVec 12) (s : State), (∀ d, s.config.stackDepth = some d → s.stack.length ≠ d) →
    ∃ t, exec (.call nnn) s = .next t ∧ t.stack = s.stack ++ [s.pc + 2] ∧ t.pc.toNat = nnn.toNat ∧
      changesOnly [.stack, .pc] s t

/-- R108: a return from a stack that is not empty goes to the top entry, as it is, and removes it. -/
def Obligations.ReturnPopsTop : Prop :=
  ∀ (below : List Word) (top : Word) (s : State), s.stack = below ++ [top] →
    ∃ t, exec .ret s = .next t ∧ t.pc = top ∧ t.stack = below ∧ changesOnly [.stack, .pc] s t

/-- R106, R108, R224 (with the spec's D6 and D7): a return from the empty stack and a call on the full bounded stack
fault, with every field as it was but RUN. -/
def Obligations.StackFaults : Prop :=
  (∀ s : State, s.stack = [] →
    ∃ t, exec .ret s = .next t ∧ t.run = .fault .stackUnderflow ∧ changesOnly [.run] s t) ∧
  (∀ (nnn : BitVec 12) (d : Nat) (s : State), s.config.stackDepth = some d → s.stack.length = d →
    ∃ t, exec (.call nnn) s = .next t ∧ t.run = .fault .stackOverflow ∧ changesOnly [.run] s t)

/-- R106, R108 (the source's stack round trip): whatever runs between, a return on the stack a call left goes to the
address after the call and restores the stack. -/
def Obligations.CallThenReturn : Prop :=
  ∀ (nnn : BitVec 12) (s t u : State), (∀ d, s.config.stackDepth = some d → s.stack.length ≠ d) →
    exec (.call nnn) s = .next t → u.stack = t.stack →
    ∃ v, exec .ret u = .next v ∧ v.pc = s.pc + 2 ∧ v.stack = s.stack

/-! ### Skips -/

/-- R121, R122, R123, R124: from a state with SKIP = 0 (as every reachable state has it, R35) PC goes on by 4 when the
condition holds and by 2 when it does not, and nothing else changes. -/
def Obligations.ValueSkips : Prop :=
  ∀ (x y : RegIdx) (nn : Byte) (s : State), s.skip = false →
    (∃ t, exec (.seImm x nn) s = .next t ∧ t.pc = s.pc + (if s.reg x = nn then 4 else 2) ∧ changesOnly [.pc] s t) ∧
    (∃ t, exec (.sneImm x nn) s = .next t ∧ t.pc = s.pc + (if s.reg x ≠ nn then 4 else 2) ∧ changesOnly [.pc] s t) ∧
    (∃ t, exec (.seReg x y) s = .next t ∧ t.pc = s.pc + (if s.reg x = s.reg y then 4 else 2) ∧
      changesOnly [.pc] s t) ∧
    (∃ t, exec (.sneReg x y) s = .next t ∧ t.pc = s.pc + (if s.reg x ≠ s.reg y then 4 else 2) ∧
      changesOnly [.pc] s t)

/-- R125, R126 (with the spec's D17): the key skips; a value above 15 names no key, and exactly one of the two
skips. -/
def Obligations.KeySkips : Prop :=
  ∀ (x : RegIdx) (s : State), s.skip = false →
    (∃ t, exec (.skp x) s = .next t ∧
      t.pc = s.pc + (if (s.reg x).toNat ≤ 15 ∧ s.keys.getLsbD (s.reg x).toNat = true then 4 else 2) ∧
      changesOnly [.pc] s t) ∧
    (∃ t, exec (.sknp x) s = .next t ∧
      t.pc = s.pc + (if (s.reg x).toNat ≤ 15 ∧ s.keys.getLsbD (s.reg x).toNat = true then 2 else 4) ∧
      changesOnly [.pc] s t)

/-! ### Load, arithmetic, logic, shift, random -/

/-- R141, R142, R143: the immediate load, the immediate sum modulo 256 with no flag, and the register copy. -/
def Obligations.LoadsAndAddImmediate : Prop :=
  ∀ (x y : RegIdx) (nn : Byte) (s : State),
    (∃ t, exec (.ldImm x nn) s = .next t ∧ t.reg x = nn ∧ (∀ r, r ≠ x → t.reg r = s.reg r) ∧ t.pc = s.pc + 2 ∧
      changesOnly [.v, .pc] s t) ∧
    (∃ t, exec (.addImm x nn) s = .next t ∧ (t.reg x).toNat = ((s.reg x).toNat + nn.toNat) % 256 ∧
      (∀ r, r ≠ x → t.reg r = s.reg r) ∧ t.pc = s.pc + 2 ∧ changesOnly [.v, .pc] s t) ∧
    (∃ t, exec (.ldReg x y) s = .next t ∧ t.reg x = s.reg y ∧ (∀ r, r ≠ x → t.reg r = s.reg r) ∧ t.pc = s.pc + 2 ∧
      changesOnly [.v, .pc] s t)

/-- R144, R145, R146: the bitwise operations bit by bit, on the registers as they are after VF is zeroed under
`Q_VF_RESET`. -/
def Obligations.LogicOperations : Prop :=
  ∀ (x y : RegIdx) (s : State) (before : RegIdx → Byte),
    (∀ r, before r = if s.config.vfReset = true ∧ r = 15 then 0 else s.reg r) →
    (∃ t, exec (.orReg x y) s = .next t ∧
      (∀ k < 8, (t.reg x).getLsbD k = ((before x).getLsbD k || (before y).getLsbD k)) ∧
      (∀ r, r ≠ x → t.reg r = before r) ∧ t.pc = s.pc + 2 ∧ changesOnly [.v, .pc] s t) ∧
    (∃ t, exec (.andReg x y) s = .next t ∧
      (∀ k < 8, (t.reg x).getLsbD k = ((before x).getLsbD k && (before y).getLsbD k)) ∧
      (∀ r, r ≠ x → t.reg r = before r) ∧ t.pc = s.pc + 2 ∧ changesOnly [.v, .pc] s t) ∧
    (∃ t, exec (.xorReg x y) s = .next t ∧
      (∀ k < 8, (t.reg x).getLsbD k = ((before x).getLsbD k ^^ (before y).getLsbD k)) ∧
      (∀ r, r ≠ x → t.reg r = before r) ∧ t.pc = s.pc + 2 ∧ changesOnly [.v, .pc] s t)

/-- R147: the sum modulo 256 in V[X] and the carry in VF, written last, so that for X = 15 VF holds the carry. -/
def Obligations.AddSetsCarry : Prop :=
  ∀ (x y : RegIdx) (s : State), ∃ t, exec (.addReg x y) s = .next t ∧
    (x ≠ 15 → (t.reg x).toNat = ((s.reg x).toNat + (s.reg y).toNat) % 256) ∧
    t.reg 15 = (if 255 < (s.reg x).toNat + (s.reg y).toNat then 1 else 0) ∧
    (∀ r, r ≠ x → r ≠ 15 → t.reg r = s.reg r) ∧ t.pc = s.pc + 2 ∧ changesOnly [.v, .pc] s t

/-- R148, R151: the difference modulo 256 in V[X] and the NOT of the borrow in VF, written last. -/
def Obligations.SubtractionsSetNotBorrow : Prop :=
  ∀ (x y : RegIdx) (s : State),
    (∃ t, exec (.subReg x y) s = .next t ∧
      (x ≠ 15 → ((t.reg x).toNat : Int) = ((s.reg x).toNat - (s.reg y).toNat : Int) % 256) ∧
      t.reg 15 = (if (s.reg x).toNat ≥ (s.reg y).toNat then 1 else 0) ∧
      (∀ r, r ≠ x → r ≠ 15 → t.reg r = s.reg r) ∧ t.pc = s.pc + 2 ∧ changesOnly [.v, .pc] s t) ∧
    (∃ t, exec (.subnReg x y) s = .next t ∧
      (x ≠ 15 → ((t.reg x).toNat : Int) = ((s.reg y).toNat - (s.reg x).toNat : Int) % 256) ∧
      t.reg 15 = (if (s.reg y).toNat ≥ (s.reg x).toNat then 1 else 0) ∧
      (∀ r, r ≠ x → r ≠ 15 → t.reg r = s.reg r) ∧ t.pc = s.pc + 2 ∧ changesOnly [.v, .pc] s t)

/-- R150, R152 (with the spec's C1 and D13 for the source register): one place right or left, the bit shifted out in VF,
written last. -/
def Obligations.ShiftsSetShiftedOutBit : Prop :=
  ∀ (x y : RegIdx) (s : State) (a : Nat), a = (s.reg (if s.config.shiftVx then x else y)).toNat →
    (∃ t, exec (.shr x y) s = .next t ∧ (x ≠ 15 → (t.reg x).toNat = a / 2) ∧ (t.reg 15).toNat = a % 2 ∧
      (∀ r, r ≠ x → r ≠ 15 → t.reg r = s.reg r) ∧ t.pc = s.pc + 2 ∧ changesOnly [.v, .pc] s t) ∧
    (∃ t, exec (.shl x y) s = .next t ∧ (x ≠ 15 → (t.reg x).toNat = 2 * a % 256) ∧ (t.reg 15).toNat = a / 128 ∧
      (∀ r, r ≠ x → r ≠ 15 → t.reg r = s.reg r) ∧ t.pc = s.pc + 2 ∧ changesOnly [.v, .pc] s t)

/-- R153 (with the spec's D23): V[X] is the draw masked by NN, whatever the draw (the free value of log 6), and the next
draw is another one. -/
def Obligations.RandomIsMaskedDraw : Prop :=
  ∀ (x : RegIdx) (nn : Byte) (s : State), ∃ t, exec (.rnd x nn) s = .next t ∧
    t.reg x = Config.draw s.draws &&& nn ∧ t.draws = s.draws + 1 ∧ (∀ r, r ≠ x → t.reg r = s.reg r) ∧
    t.pc = s.pc + 2 ∧ changesOnly [.v, .pc, .draws] s t

/-! ### Index and memory -/

/-- R171, R172: I is NNN; I and V[X] are added modulo 65536 with no flag and no check of the address. -/
def Obligations.IndexLoadAndAdd : Prop :=
  (∀ (nnn : BitVec 12) (s : State), ∃ t, exec (.ldI nnn) s = .next t ∧ t.i.toNat = nnn.toNat ∧ t.pc = s.pc + 2 ∧
    changesOnly [.i, .pc] s t) ∧
  (∀ (x : RegIdx) (s : State), ∃ t, exec (.addI x) s = .next t ∧
    t.i.toNat = (s.i.toNat + (s.reg x).toNat) % 65536 ∧ t.pc = s.pc + 2 ∧ changesOnly [.i, .pc] s t)

/-- R173 (with the spec's D8): I is the address of the glyph, with all 8 bits of V[X]. -/
def Obligations.GlyphAddressInIndex : Prop :=
  ∀ (x : RegIdx) (s : State), ∃ t, exec (.ldF x) s = .next t ∧ t.i.toNat = 0x050 + 5 * (s.reg x).toNat ∧
    t.pc = s.pc + 2 ∧ changesOnly [.i, .pc] s t

/-- R174: where the three bytes from I on are in memory, they become the decimal digits of V[X], most significant first,
and every other byte reads as before. -/
def Obligations.BcdStore : Prop :=
  ∀ (x : RegIdx) (s : State), Memory.wf s.mem = true → dataAddress s + 3 ≤ 4096 →
    ∃ t, exec (.ldB x) s = .next t ∧
      (t.readByte (dataAddress s)).toNat = (s.reg x).toNat / 100 ∧
      (t.readByte (dataAddress s + 1)).toNat = (s.reg x).toNat / 10 % 10 ∧
      (t.readByte (dataAddress s + 2)).toNat = (s.reg x).toNat % 10 ∧
      (∀ a, (a < dataAddress s ∨ dataAddress s + 3 ≤ a) → t.readByte a = s.readByte a) ∧
      t.pc = s.pc + 2 ∧ changesOnly [.mem, .pc] s t

/-- R176 (with the spec's D13 for `Q_INC_I`): where the X + 1 bytes from I on are in memory, they become V0 to V[X],
every other byte reads as before, and I moves past them only under `Q_INC_I`. -/
def Obligations.StoreRegisters : Prop :=
  ∀ (x : RegIdx) (s : State), Memory.wf s.mem = true → dataAddress s + x.val < 4096 →
    ∃ t, exec (.ldMemVx x) s = .next t ∧
      (∀ r : RegIdx, r ≤ x → t.readByte (dataAddress s + r.val) = s.reg r) ∧
      (∀ a, (a < dataAddress s ∨ dataAddress s + x.val < a) → t.readByte a = s.readByte a) ∧
      t.i.toNat = (if s.config.incI then (s.i.toNat + x.val + 1) % 65536 else s.i.toNat) ∧
      t.pc = s.pc + 2 ∧ changesOnly [.mem, .i, .pc] s t

/-- R177 (with the spec's D13 for `Q_INC_I`): where the X + 1 bytes from I on are in memory, V0 to V[X] become them, the
other registers stay, and I moves only under `Q_INC_I`. -/
def Obligations.LoadRegisters : Prop :=
  ∀ (x : RegIdx) (s : State), dataAddress s + x.val < 4096 →
    ∃ t, exec (.ldVxMem x) s = .next t ∧
      (∀ r : RegIdx, r ≤ x → t.reg r = s.readByte (dataAddress s + r.val)) ∧
      (∀ r : RegIdx, x < r → t.reg r = s.reg r) ∧
      t.i.toNat = (if s.config.incI then (s.i.toNat + x.val + 1) % 65536 else s.i.toNat) ∧
      t.pc = s.pc + 2 ∧ changesOnly [.v, .i, .pc] s t

/-- R56, R174, R176, R177, R194, R196 (with the spec's D5 and D30): an instruction whose bytes from I on do not all
exist faults, and nothing changes but RUN: no byte, register or pixel is written. -/
def Obligations.RangeFaultsChangeNothing : Prop :=
  ∀ (i : Instr) (s : State), 0 < dataBytes i → 4096 < dataAddress s + dataBytes i →
    ∃ t, exec i s = .next t ∧ t.run = .fault .memOutOfRange ∧ changesOnly [.run] s t

/-- R175: whatever runs between, a load of V0 to V[X] from the memory and the index that a store of them left at the
same I gives the registers their stored values. -/
def Obligations.StoreThenLoadRestores : Prop :=
  ∀ (x : RegIdx) (s t u : State), Memory.wf s.mem = true → dataAddress s + x.val < 4096 →
    exec (.ldMemVx x) s = .next t → u.i = s.i →
    (∀ k ≤ x.val, u.readByte (dataAddress s + k) = t.readByte (dataAddress s + k)) →
    ∃ v, exec (.ldVxMem x) u = .next v ∧ (∀ r : RegIdx, r ≤ x → v.reg r = s.reg r) ∧
      ∀ r : RegIdx, x < r → v.reg r = u.reg r

/-- R63: a store is seen by the very next fetch: a word stored over the instruction after FX55 is the word fetched
next. -/
def Obligations.StoreIsSeenByNextFetch : Prop :=
  ∀ (x : RegIdx) (s t : State), Memory.wf s.mem = true → 1 ≤ x.val → dataAddress s + x.val < 4096 →
    dataAddress s = s.pc.toNat + 2 → exec (.ldMemVx x) s = .next t →
    ∃ w, fetchWord t = some w ∧ w.toNat = 256 * (s.reg 0).toNat + (s.reg 1).toNat

/-! ### Display -/

/-- R192: 00E0 turns every pixel off, VF included in what stays, and emits Clear and Present. -/
def Obligations.ClearScreen : Prop :=
  ∀ s : State, ∃ t, exec .cls s = .next t ∧ (∀ x y, pixelAt t.fb x y = false) ∧
    t.trace = s.trace ++ [.clear, .present] ∧ t.pc = s.pc + 2 ∧ changesOnly [.fb, .pc, .trace] s t

/-- R191, R193, R194, R195 (with the spec's D11, D14 and D16): where the N sprite bytes are in memory, DXYN toggles
exactly the pixels that a sprite bit of 1 lands on, wrapped or clipped; VF is 1 if one of them was on and else 0; no
other register changes. -/
def Obligations.DrawTogglesSpritePixels : Prop :=
  ∀ (x y : RegIdx) (n : Fin 16) (s : State), (n.val = 0 ∨ dataAddress s + n.val ≤ 4096) →
    ∃ t, exec (.drw x y n) s = .next t ∧
      (∀ px py, toggles x y n s px py → pixelAt t.fb px py = !pixelAt s.fb px py) ∧
      (∀ px py, ¬toggles x y n s px py → pixelAt t.fb px py = pixelAt s.fb px py) ∧
      (t.reg 15 = 0 ∨ t.reg 15 = 1) ∧
      (t.reg 15 = 1 ↔ ∃ px py, toggles x y n s px py ∧ pixelAt s.fb px py = true) ∧
      (∀ r, r ≠ 15 → t.reg r = s.reg r) ∧ t.pc = s.pc + 2 ∧ changesOnly [.v, .fb, .pc, .trace] s t

/-- R194: within one draw no pixel is touched twice, so the order of the loops does not matter. -/
def Obligations.NoPixelTouchedTwice : Prop :=
  ∀ (x y : RegIdx) (n : Fin 16) (s : State), (drawTargets x y n s).Nodup

/-- R194, R197 (with the spec's D25): a draw emits one SetPixel event with the new value for each pixel it toggles, in
sprite order, then one Present. -/
def Obligations.DrawEmitsOneEventPerPixel : Prop :=
  ∀ (x y : RegIdx) (n : Fin 16) (s : State), (n.val = 0 ∨ dataAddress s + n.val ≤ 4096) →
    ∃ t, exec (.drw x y n) s = .next t ∧
      t.trace = s.trace ++
        ((drawTargets x y n s).map fun p => OutputEvent.setPixel p.1 p.2 (pixelAt t.fb p.1 p.2)) ++ [.present]

/-- R198 (the source's XOR self-inverse property, with the spec's reading of its VF): a second draw of the same sprite
at the same place, from the screen the first left, restores the screen; its VF is 1 exactly when the first draw turned
a pixel on. -/
def Obligations.DrawTwiceRestoresScreen : Prop :=
  ∀ (x y : RegIdx) (n : Fin 16) (s t u : State), (n.val = 0 ∨ dataAddress s + n.val ≤ 4096) →
    exec (.drw x y n) s = .next t → u.fb = t.fb → u.reg x = s.reg x → u.reg y = s.reg y → u.i = s.i →
    u.config = s.config → (∀ k < n.val, u.readByte (dataAddress s + k) = s.readByte (dataAddress s + k)) →
    ∃ v, exec (.drw x y n) u = .next v ∧ (∀ px py, pixelAt v.fb px py = pixelAt s.fb px py) ∧
      (v.reg 15 = 1 ↔ ∃ px py, toggles x y n s px py ∧ pixelAt s.fb px py = false)

/-! ### Timers and keypad -/

/-- R201, R202, R205: DT to V[X], V[X] to DT, V[X] to ST. SND stays (R29 with the spec's D19, log 20). -/
def Obligations.TimerRegisterMoves : Prop :=
  ∀ (x : RegIdx) (s : State),
    (∃ t, exec (.ldVxDt x) s = .next t ∧ t.reg x = s.dt ∧ (∀ r, r ≠ x → t.reg r = s.reg r) ∧ t.pc = s.pc + 2 ∧
      changesOnly [.v, .pc] s t) ∧
    (∃ t, exec (.ldDtVx x) s = .next t ∧ t.dt = s.reg x ∧ t.pc = s.pc + 2 ∧ changesOnly [.dt, .pc] s t) ∧
    (∃ t, exec (.ldStVx x) s = .next t ∧ t.st = s.reg x ∧ t.pc = s.pc + 2 ∧ changesOnly [.st, .pc] s t)

/-- R203 (with the spec's D18): FX0A starts a wait with no key latched; PC and V[X] stay. -/
def Obligations.KeyWaitBegins : Prop :=
  ∀ (x : RegIdx) (s : State), ∃ t, exec (.ldVxK x) s = .next t ∧ t.run = .awaitingKey x none ∧ changesOnly [.run] s t

/-- R207, R208, R209 (with the spec's D19): a tick takes 1 from each timer that is not 0, sets SND from the new ST with
its event, and touches nothing else. -/
def Obligations.TimerTickCountsDown : Prop :=
  ∀ s : State, (s.run = .running ∨ ∃ x latch, s.run = .awaitingKey x latch) →
    ∃ t, transition .timerTick s = .next t ∧ t.dt.toNat = s.dt.toNat - 1 ∧ t.st.toNat = s.st.toNat - 1 ∧
      t.snd = decide (0 < t.st.toNat) ∧ t.trace = s.trace ++ [if 0 < t.st.toNat then .playLoop else .stop] ∧
      changesOnly [.dt, .st, .snd, .trace] s t

/-- R206, R213: in a key wait of n ticks the timers lose n, down to 0, SND follows ST, and the wait goes on. -/
def Obligations.TimersRunDuringKeyWait : Prop :=
  ∀ (n : Nat) (s : State) (x : RegIdx) (latch : Option KeyCode), s.run = .awaitingKey x latch →
    ∃ t, Host.Core.run core n (s.setSchedule (List.replicate n .timerTick)) = .next t ∧
      t.dt.toNat = s.dt.toNat - n ∧ t.st.toNat = s.st.toNat - n ∧
      (0 < n → t.snd = decide (0 < s.st.toNat - n)) ∧ changesOnly [.dt, .st, .snd, .schedule, .trace] s t

/-- R211 (with the spec's D17 and D18): a key-down of a key that is not held sets its bit of KEYS alone, and is latched
by a wait that has no key yet; a repeat changes nothing. -/
def Obligations.KeyDownEffect : Prop :=
  ∀ (k : KeyCode) (s : State), (s.run = .running ∨ ∃ x latch, s.run = .awaitingKey x latch) →
    (s.keys.getLsbD k.val = true → transition (.keyDown k) s = .next s) ∧
    (s.keys.getLsbD k.val = false →
      ∃ t, transition (.keyDown k) s = .next t ∧
        (∀ j : KeyCode, t.keys.getLsbD j.val = (s.keys.getLsbD j.val || decide (j = k))) ∧
        (∀ x, s.run = .awaitingKey x none → t.run = .awaitingKey x (some k)) ∧
        ((∀ x, s.run ≠ .awaitingKey x none) → t.run = s.run) ∧ changesOnly [.keys, .run] s t)

/-- R204, R212 (with the spec's D17 and D18): a key-up of a held key clears its bit of KEYS alone; the release of the
latched key, and of no other, ends the wait: V[x] is the key, PC moves on by 2, RUN is Running. -/
def Obligations.KeyUpEffect : Prop :=
  ∀ (k : KeyCode) (s : State), (s.run = .running ∨ ∃ x latch, s.run = .awaitingKey x latch) →
    (s.keys.getLsbD k.val = false → transition (.keyUp k) s = .next s) ∧
    (s.keys.getLsbD k.val = true →
      ∃ t, transition (.keyUp k) s = .next t ∧
        (∀ j : KeyCode, t.keys.getLsbD j.val = (s.keys.getLsbD j.val && decide (j ≠ k))) ∧
        (∀ x, s.run = .awaitingKey x (some k) → t.run = .running ∧ (t.reg x).toNat = k.val ∧
          (∀ r, r ≠ x → t.reg r = s.reg r) ∧ t.pc = s.pc + 2) ∧
        ((∀ x, s.run ≠ .awaitingKey x (some k)) → changesOnly [.keys] s t) ∧
        changesOnly [.v, .pc, .keys, .run] s t)

/-- R203, R204 (with the spec's D18): an FX0A followed by the press and the release of a key that was not held puts the
key's code in V[X] and goes on after the FX0A, with KEYS as before. -/
def Obligations.KeyWaitResolves : Prop :=
  ∀ (x : RegIdx) (k : KeyCode) (s : State), s.run = .running → s.pc.toNat + 1 < 4096 →
    s.pc.toNat < 0x200 + s.romSize + s.config.haltMargin.val → fetchWord s = some (encode (.ldVxK x)) →
    s.keys.getLsbD k.val = false → s.schedule = [.engineStep, .keyDown k, .keyUp k] →
    ∃ t, Host.Core.run core 3 s = .next t ∧ (t.reg x).toNat = k.val ∧ (∀ r, r ≠ x → t.reg r = s.reg r) ∧
      t.pc = s.pc + 2 ∧ t.schedule = [] ∧ changesOnly [.v, .pc, .schedule] s t

/-- R204, R206, R226 (with the spec's D18): a pending key wait goes on, for the same register and with a latched key that
stays latched, unless the transition is the release of the latched key while it is held, or a quit. -/
def Obligations.KeyWaitEndsOnlyByReleaseOrQuit : Prop :=
  ∀ (tr : Transition) (s t : State) (x : RegIdx) (latch : Option KeyCode), s.run = .awaitingKey x latch →
    transition tr s = .next t →
    (∃ latch', t.run = .awaitingKey x latch' ∧ (∀ k, latch = some k → latch' = some k)) ∨
    (∃ k, tr = .keyUp k ∧ latch = some k ∧ s.keys.getLsbD k.val = true ∧ t.run = .running) ∨
    (tr = .quit ∧ t.run = .halted .quit)

/-- R214, R226 (with the spec's D20): a quit halts the run and changes nothing else, in a key wait too. -/
def Obligations.QuitHaltsRun : Prop :=
  ∀ s : State, (s.run = .running ∨ ∃ x latch, s.run = .awaitingKey x latch) →
    ∃ t, transition .quit s = .next t ∧ t.run = .halted .quit ∧ changesOnly [.run] s t

/-- R210: under a map with no host key at two codes, the input mapper is a bijection: each code has its host key and a
host key that is no code's gives no event. -/
def Obligations.HostKeyMapIsBijection : Prop :=
  ∀ m : HostKeyMap, HostKeyMap.wf m = true →
    (∀ k : KeyCode, hostPress m m[k.val] = some (.keyDown k) ∧ hostRelease m m[k.val] = some (.keyUp k)) ∧
    (∀ h : HostKey, (∀ k : KeyCode, m[k.val] ≠ h) → hostPress m h = none ∧ hostRelease m h = none)
end

