-- ==== Sys2Proof/Laws/Encoding.lean ====
section
/-! SUPPORT. The fields of the words the encoder's formats make (R71, R72). -/

namespace Sys2Proof

variable (op : BitVec 4) (x y : RegIdx) (n : BitVec 4) (nn : Byte) (nnn : BitVec 12)

@[simp] theorem nibble_toFin : (nibble x).toFin = x := rfl

/-- The high nibble and the low twelve bits of a joined word. -/
@[simp] theorem opHi_append : opHi (op ++ nnn : BitVec (4 + 12)) = op :=
  BitVec.extractLsb'_append_eq_left

@[simp] theorem fieldNNN_append : fieldNNN (op ++ nnn : BitVec (4 + 12)) = nnn :=
  (BitVec.extractLsb'_append_eq_of_add_le (by decide)).trans BitVec.extractLsb'_eq_self

@[simp] theorem fieldX_append : fieldX (op ++ nnn : BitVec (4 + 12)) = (nnn.extractLsb' 8 4).toFin :=
  congrArg BitVec.toFin (BitVec.extractLsb'_append_eq_of_add_le (by decide))

@[simp] theorem fieldY_append : fieldY (op ++ nnn : BitVec (4 + 12)) = (nnn.extractLsb' 4 4).toFin :=
  congrArg BitVec.toFin (BitVec.extractLsb'_append_eq_of_add_le (by decide))

@[simp] theorem fieldN_append : fieldN (op ++ nnn : BitVec (4 + 12)) = nnn.extractLsb' 0 4 :=
  BitVec.extractLsb'_append_eq_of_add_le (by decide)

@[simp] theorem fieldNN_append : fieldNN (op ++ nnn : BitVec (4 + 12)) = nnn.extractLsb' 0 8 :=
  BitVec.extractLsb'_append_eq_of_add_le (by decide)

/-! ### Format A -/

@[simp] theorem opHi_encodeA : opHi (encodeA op nnn) = op := opHi_append ..
@[simp] theorem fieldNNN_encodeA : fieldNNN (encodeA op nnn) = nnn := fieldNNN_append ..

/-! ### Formats I and K -/

theorem highOfTwelve : (nibble x ++ nn : BitVec (4 + 8)).extractLsb' 8 4 = nibble x :=
  BitVec.extractLsb'_append_eq_left

theorem lowOfTwelve : (nibble x ++ nn : BitVec (4 + 8)).extractLsb' 0 8 = nn :=
  (BitVec.extractLsb'_append_eq_of_add_le (by decide)).trans BitVec.extractLsb'_eq_self

@[simp] theorem opHi_encodeI : opHi (encodeI op x nn) = op := opHi_append ..
@[simp] theorem fieldX_encodeI : fieldX (encodeI op x nn) = x :=
  (fieldX_append ..).trans (congrArg BitVec.toFin (highOfTwelve x nn))
@[simp] theorem fieldNN_encodeI : fieldNN (encodeI op x nn) = nn := (fieldNN_append ..).trans (lowOfTwelve x nn)

@[simp] theorem opHi_encodeK : opHi (encodeK op x nn) = op := opHi_append ..
@[simp] theorem fieldX_encodeK : fieldX (encodeK op x nn) = x :=
  (fieldX_append ..).trans (congrArg BitVec.toFin (highOfTwelve x nn))
@[simp] theorem fieldNN_encodeK : fieldNN (encodeK op x nn) = nn := (fieldNN_append ..).trans (lowOfTwelve x nn)

/-! ### Format R -/

@[simp] theorem opHi_encodeR : opHi (encodeR op x y n) = op := opHi_append ..
@[simp] theorem fieldX_encodeR : fieldX (encodeR op x y n) = x :=
  (fieldX_append ..).trans (congrArg BitVec.toFin (highOfTwelve x (nibble y ++ n : BitVec (4 + 4))))
@[simp] theorem fieldY_encodeR : fieldY (encodeR op x y n) = y :=
  (fieldY_append ..).trans (congrArg BitVec.toFin
    ((BitVec.extractLsb'_append_eq_of_add_le (by decide)).trans BitVec.extractLsb'_append_eq_left))
@[simp] theorem fieldN_encodeR : fieldN (encodeR op x y n) = n :=
  (fieldN_append ..).trans ((BitVec.extractLsb'_append_eq_of_add_le (by decide)).trans
    ((BitVec.extractLsb'_append_eq_of_add_le (by decide)).trans BitVec.extractLsb'_eq_self))

/-! ### Masks of R76 -/

theorem encodeA_and : encodeA op nnn &&& 0xF000#16 = encodeA op 0#12 := by
  have h : (0xF000#16 : Word) = (0xF#4 ++ 0x000#12 : BitVec (4 + 12)) := rfl
  have hop : op &&& 0xF#4 = op := BitVec.and_allOnes
  rw [h]
  exact BitVec.and_append.trans (by rw [hop, BitVec.and_zero]; rfl)

theorem encodeI_and : encodeI op x nn &&& 0xF000#16 = encodeA op 0#12 := encodeA_and ..

theorem encodeR_and : encodeR op x y n &&& 0xF000#16 = encodeA op 0#12 := encodeA_and ..

theorem encodeR_andN : encodeR op x y n &&& 0xF00F#16 = encodeA op (0#8 ++ n : BitVec (8 + 4)) := by
  have h : (0xF00F#16 : Word) = (0xF#4 ++ (0x0#4 ++ (0x0#4 ++ 0xF#4 : BitVec (4 + 4)) : BitVec (4 + 8)) : BitVec (4 + 12)) :=
    rfl
  have h0 : (0#8 ++ n : BitVec (8 + 4)) = (0#4 ++ (0#4 ++ n : BitVec (4 + 4)) : BitVec (4 + 8)) := by
    ext i hi
    simp
    grind
  have hop : op &&& 0xF#4 = op := BitVec.and_allOnes
  have hn : n &&& 0xF#4 = n := BitVec.and_allOnes
  rw [h, h0]
  exact BitVec.and_append.trans (by
    rw [hop]
    exact congrArg (fun r : BitVec 12 => (op ++ r : BitVec (4 + 12)))
      (BitVec.and_append.trans (by
        rw [BitVec.and_zero]
        exact congrArg (fun r : BitVec 8 => (0#4 ++ r : BitVec (4 + 8)))
          (BitVec.and_append.trans (by rw [BitVec.and_zero, hn])))))

theorem encodeK_and : encodeK op x nn &&& 0xF0FF#16 = encodeA op (0#4 ++ nn : BitVec (4 + 8)) := by
  have h : (0xF0FF#16 : Word) = (0xF#4 ++ (0x0#4 ++ 0xFF#8 : BitVec (4 + 8)) : BitVec (4 + 12)) := rfl
  have hop : op &&& 0xF#4 = op := BitVec.and_allOnes
  have hn : nn &&& 0xFF#8 = nn := BitVec.and_allOnes
  rw [h]
  exact BitVec.and_append.trans (by
    rw [hop]
    exact congrArg (fun r : BitVec 12 => (op ++ r : BitVec (4 + 12)))
      (BitVec.and_append.trans (by rw [BitVec.and_zero, hn])))

end Sys2Proof
end

