-- ==== Sys2Proof/Laws/Memory.lean ====
section
/-! SUPPORT. MEM: every operation keeps the canonical form, and what a read gives after a write. -/

namespace Sys2Proof.Machine

/-! ### The canonical form -/

theorem wfFrom_cons (lo a : Nat) (b : Byte) (m : Memory) :
    Memory.wfFrom lo ((a, b) :: m) = true ↔
      lo ≤ a ∧ a < memSize ∧ b ≠ background a ∧ Memory.wfFrom (a + 1) m = true := by
  simp [Memory.wfFrom, and_assoc]

theorem wfFrom_mono {lo hi : Nat} {m : Memory} (h : Memory.wfFrom hi m = true) (hle : lo ≤ hi) :
    Memory.wfFrom lo m = true := by
  cases m with
  | nil => rfl
  | cons c m =>
    rw [wfFrom_cons] at h ⊢
    exact ⟨hle.trans h.1, h.2⟩

/-- An address below every cell reads as unlisted. -/
theorem read_below {lo a : Nat} {m : Memory} (h : Memory.wfFrom lo m = true) (ha : a < lo) :
    Memory.read m a = background a := by
  induction m generalizing lo with
  | nil => rfl
  | cons c m ih =>
    rw [wfFrom_cons] at h
    have hne : a ≠ c.1 := by omega
    simp only [Memory.read, if_neg hne]
    exact ih h.2.2.2 (by omega)

theorem wf_reset_memory : Memory.wf [] = true := rfl

/-! ### Insertion and removal -/

theorem wfFrom_insert {lo a : Nat} {b : Byte} {m : Memory} (h : Memory.wfFrom lo m = true) (hlo : lo ≤ a)
    (ha : a < memSize) (hb : b ≠ background a) : Memory.wfFrom lo (Memory.insert m a b) = true := by
  induction m generalizing lo with
  | nil => exact (wfFrom_cons ..).mpr ⟨hlo, ha, hb, rfl⟩
  | cons c m ih =>
    obtain ⟨h1, h2, h3, h4⟩ := (wfFrom_cons ..).mp h
    simp only [Memory.insert]
    split
    · simp only [wfFrom_cons]
      exact ⟨hlo, ha, hb, by omega, h2, h3, h4⟩
    · split
      · rename_i _ heq
        subst heq
        exact (wfFrom_cons ..).mpr ⟨hlo, ha, hb, h4⟩
      · exact (wfFrom_cons ..).mpr ⟨h1, h2, h3, ih h4 (by omega)⟩

theorem wfFrom_erase {lo a : Nat} {m : Memory} (h : Memory.wfFrom lo m = true) :
    Memory.wfFrom lo (Memory.erase m a) = true := by
  induction m generalizing lo with
  | nil => rfl
  | cons c m ih =>
    obtain ⟨h1, h2, h3, h4⟩ := (wfFrom_cons ..).mp h
    simp only [Memory.erase]
    split
    · exact wfFrom_mono h4 (by omega)
    · exact (wfFrom_cons ..).mpr ⟨h1, h2, h3, ih h4⟩

theorem read_insert (m : Memory) (a a' : Nat) (b : Byte) :
    Memory.read (Memory.insert m a b) a' = if a' = a then b else Memory.read m a' := by
  induction m with
  | nil => simp [Memory.insert, Memory.read]
  | cons c m ih =>
    simp only [Memory.insert]
    split
    · simp [Memory.read]
    · split
      · rename_i _ heq
        by_cases h : a' = a <;> simp [Memory.read, h, ← heq]
      · rename_i _ hne
        have hne' : c.1 ≠ a := Ne.symm hne
        simp only [Memory.read, ih]
        by_cases h : a' = c.1
        · simp [h, hne']
        · simp [h]

theorem read_erase {lo a : Nat} {m : Memory} (h : Memory.wfFrom lo m = true) (a' : Nat) :
    Memory.read (Memory.erase m a) a' = if a' = a then background a else Memory.read m a' := by
  induction m generalizing lo with
  | nil => by_cases h' : a' = a <;> simp [Memory.erase, Memory.read, h']
  | cons c m ih =>
    obtain ⟨_, _, _, h4⟩ := (wfFrom_cons ..).mp h
    simp only [Memory.erase]
    split
    · rename_i heq
      by_cases h' : a' = a
      · subst h'
        simp [read_below h4 (by omega : a' < c.1 + 1)]
      · simp [Memory.read, h', ← heq]
    · rename_i hne
      by_cases h' : a' = c.1
      · subst h'
        have hne' : c.1 ≠ a := Ne.symm hne
        simp [Memory.read, hne']
      · simp [Memory.read, h', ih h4]

/-! ### One store, and several -/

theorem wf_write {m : Memory} {a : Nat} {b : Byte} (h : Memory.wf m = true) (ha : a < memSize) :
    Memory.wf (Memory.write m a b) = true := by
  unfold Memory.write
  split
  · exact wfFrom_erase h
  · exact wfFrom_insert h (Nat.zero_le a) ha ‹_›

/-- A read after a write (R53): the value written at its address, the old one elsewhere. -/
theorem read_write {m : Memory} (h : Memory.wf m = true) (a a' : Nat) (b : Byte) :
    Memory.read (Memory.write m a b) a' = if a' = a then b else Memory.read m a' := by
  unfold Memory.write
  split
  · rename_i hb
    rw [read_erase h, hb]
  · exact read_insert m a a' b

theorem wf_writeList {m : Memory} {a : Nat} {bs : List Byte} (h : Memory.wf m = true)
    (ha : a + bs.length ≤ memSize) : Memory.wf (Memory.writeList m a bs) = true := by
  induction bs generalizing m a with
  | nil => exact h
  | cons b bs ih =>
    simp only [List.length_cons] at ha
    exact ih (wf_write h (by omega)) (by omega)

/-- A read after a store of bytes in memory: the byte of its place, the old one outside. -/
theorem read_writeList {m : Memory} {a : Nat} {bs : List Byte} (h : Memory.wf m = true)
    (ha : a + bs.length ≤ memSize) (a' : Nat) :
    Memory.read (Memory.writeList m a bs) a' =
      if a ≤ a' ∧ a' < a + bs.length then bs.getD (a' - a) 0 else Memory.read m a' := by
  induction bs generalizing m a with
  | nil =>
    simp only [Memory.writeList, List.length_nil]
    rw [if_neg (by omega)]
  | cons b bs ih =>
    simp only [List.length_cons] at ha
    simp only [Memory.writeList, List.length_cons]
    rw [ih (wf_write h (by omega)) (by omega), read_write h]
    by_cases h1 : a' = a
    · subst h1
      simp
    · by_cases h2 : a + 1 ≤ a' ∧ a' < a + 1 + bs.length
      · have h3 : a ≤ a' ∧ a' < a + (bs.length + 1) := by omega
        have h4 : a' - a = (a' - (a + 1)) + 1 := by omega
        simp only [if_pos h2, if_pos h3, h4, List.getD_cons_succ]
      · have h3 : ¬(a ≤ a' ∧ a' < a + (bs.length + 1)) := by omega
        simp only [if_neg h2, if_neg h3, if_neg h1]

/-- An address outside the stored bytes reads as before. -/
theorem read_writeList_outside {m : Memory} {a : Nat} {bs : List Byte} (h : Memory.wf m = true)
    (ha : a + bs.length ≤ memSize) (a' : Nat) (hout : a' < a ∨ a + bs.length ≤ a') :
    Memory.read (Memory.writeList m a bs) a' = Memory.read m a' := by
  rw [read_writeList h ha, if_neg (by omega)]

@[simp] theorem length_readList (m : Memory) (a n : Nat) : (Memory.readList m a n).length = n := by
  simp [Memory.readList]

theorem getElem_readList (m : Memory) (a n k : Nat) (h : k < (Memory.readList m a n).length) :
    (Memory.readList m a n)[k] = Memory.read m (a + k) := by
  simp [Memory.readList]

end Sys2Proof.Machine
end

