-- ==== Sys2Proof/Laws/State.lean ====
section
/-! SUPPORT. One lemma per field per update of State, each true by rfl, and the reads of a register and of memory
after each update. -/

namespace Sys2Proof.Machine

variable (s : State)

/-! ### setReg -/

@[simp] theorem setReg_v (x : RegIdx) (b : Byte) : (s.setReg x b).v = s.v.set x.val b := rfl
@[simp] theorem setReg_i (x : RegIdx) (b : Byte) : (s.setReg x b).i = s.i := rfl
@[simp] theorem setReg_pc (x : RegIdx) (b : Byte) : (s.setReg x b).pc = s.pc := rfl
@[simp] theorem setReg_stack (x : RegIdx) (b : Byte) : (s.setReg x b).stack = s.stack := rfl
@[simp] theorem setReg_dt (x : RegIdx) (b : Byte) : (s.setReg x b).dt = s.dt := rfl
@[simp] theorem setReg_st (x : RegIdx) (b : Byte) : (s.setReg x b).st = s.st := rfl
@[simp] theorem setReg_snd (x : RegIdx) (b : Byte) : (s.setReg x b).snd = s.snd := rfl
@[simp] theorem setReg_mem (x : RegIdx) (b : Byte) : (s.setReg x b).mem = s.mem := rfl
@[simp] theorem setReg_fb (x : RegIdx) (b : Byte) : (s.setReg x b).fb = s.fb := rfl
@[simp] theorem setReg_keys (x : RegIdx) (b : Byte) : (s.setReg x b).keys = s.keys := rfl
@[simp] theorem setReg_run (x : RegIdx) (b : Byte) : (s.setReg x b).run = s.run := rfl
@[simp] theorem setReg_skip (x : RegIdx) (b : Byte) : (s.setReg x b).skip = s.skip := rfl
@[simp] theorem setReg_romSize (x : RegIdx) (b : Byte) : (s.setReg x b).romSize = s.romSize := rfl
@[simp] theorem setReg_config (x : RegIdx) (b : Byte) : (s.setReg x b).config = s.config := rfl
@[simp] theorem setReg_draws (x : RegIdx) (b : Byte) : (s.setReg x b).draws = s.draws := rfl
@[simp] theorem setReg_schedule (x : RegIdx) (b : Byte) : (s.setReg x b).schedule = s.schedule := rfl
@[simp] theorem setReg_trace (x : RegIdx) (b : Byte) : (s.setReg x b).trace = s.trace := rfl
@[simp] theorem setReg_readByte (x : RegIdx) (b : Byte) (n : Nat) : (s.setReg x b).readByte n = s.readByte n := rfl

/-! ### setRegs -/

@[simp] theorem setRegs_v (a : Vector Byte 16) : (s.setRegs a).v = a := rfl
@[simp] theorem setRegs_i (a : Vector Byte 16) : (s.setRegs a).i = s.i := rfl
@[simp] theorem setRegs_pc (a : Vector Byte 16) : (s.setRegs a).pc = s.pc := rfl
@[simp] theorem setRegs_stack (a : Vector Byte 16) : (s.setRegs a).stack = s.stack := rfl
@[simp] theorem setRegs_dt (a : Vector Byte 16) : (s.setRegs a).dt = s.dt := rfl
@[simp] theorem setRegs_st (a : Vector Byte 16) : (s.setRegs a).st = s.st := rfl
@[simp] theorem setRegs_snd (a : Vector Byte 16) : (s.setRegs a).snd = s.snd := rfl
@[simp] theorem setRegs_mem (a : Vector Byte 16) : (s.setRegs a).mem = s.mem := rfl
@[simp] theorem setRegs_fb (a : Vector Byte 16) : (s.setRegs a).fb = s.fb := rfl
@[simp] theorem setRegs_keys (a : Vector Byte 16) : (s.setRegs a).keys = s.keys := rfl
@[simp] theorem setRegs_run (a : Vector Byte 16) : (s.setRegs a).run = s.run := rfl
@[simp] theorem setRegs_skip (a : Vector Byte 16) : (s.setRegs a).skip = s.skip := rfl
@[simp] theorem setRegs_romSize (a : Vector Byte 16) : (s.setRegs a).romSize = s.romSize := rfl
@[simp] theorem setRegs_config (a : Vector Byte 16) : (s.setRegs a).config = s.config := rfl
@[simp] theorem setRegs_draws (a : Vector Byte 16) : (s.setRegs a).draws = s.draws := rfl
@[simp] theorem setRegs_schedule (a : Vector Byte 16) : (s.setRegs a).schedule = s.schedule := rfl
@[simp] theorem setRegs_trace (a : Vector Byte 16) : (s.setRegs a).trace = s.trace := rfl
@[simp] theorem setRegs_readByte (a : Vector Byte 16) (n : Nat) : (s.setRegs a).readByte n = s.readByte n := rfl

/-! ### setI -/

@[simp] theorem setI_v (a : Word) : (s.setI a).v = s.v := rfl
@[simp] theorem setI_i (a : Word) : (s.setI a).i = a := rfl
@[simp] theorem setI_pc (a : Word) : (s.setI a).pc = s.pc := rfl
@[simp] theorem setI_stack (a : Word) : (s.setI a).stack = s.stack := rfl
@[simp] theorem setI_dt (a : Word) : (s.setI a).dt = s.dt := rfl
@[simp] theorem setI_st (a : Word) : (s.setI a).st = s.st := rfl
@[simp] theorem setI_snd (a : Word) : (s.setI a).snd = s.snd := rfl
@[simp] theorem setI_mem (a : Word) : (s.setI a).mem = s.mem := rfl
@[simp] theorem setI_fb (a : Word) : (s.setI a).fb = s.fb := rfl
@[simp] theorem setI_keys (a : Word) : (s.setI a).keys = s.keys := rfl
@[simp] theorem setI_run (a : Word) : (s.setI a).run = s.run := rfl
@[simp] theorem setI_skip (a : Word) : (s.setI a).skip = s.skip := rfl
@[simp] theorem setI_romSize (a : Word) : (s.setI a).romSize = s.romSize := rfl
@[simp] theorem setI_config (a : Word) : (s.setI a).config = s.config := rfl
@[simp] theorem setI_draws (a : Word) : (s.setI a).draws = s.draws := rfl
@[simp] theorem setI_schedule (a : Word) : (s.setI a).schedule = s.schedule := rfl
@[simp] theorem setI_trace (a : Word) : (s.setI a).trace = s.trace := rfl
@[simp] theorem setI_reg (a : Word) (r : RegIdx) : (s.setI a).reg r = s.reg r := rfl
@[simp] theorem setI_readByte (a : Word) (n : Nat) : (s.setI a).readByte n = s.readByte n := rfl

/-! ### setPc -/

@[simp] theorem setPc_v (a : Word) : (s.setPc a).v = s.v := rfl
@[simp] theorem setPc_i (a : Word) : (s.setPc a).i = s.i := rfl
@[simp] theorem setPc_pc (a : Word) : (s.setPc a).pc = a := rfl
@[simp] theorem setPc_stack (a : Word) : (s.setPc a).stack = s.stack := rfl
@[simp] theorem setPc_dt (a : Word) : (s.setPc a).dt = s.dt := rfl
@[simp] theorem setPc_st (a : Word) : (s.setPc a).st = s.st := rfl
@[simp] theorem setPc_snd (a : Word) : (s.setPc a).snd = s.snd := rfl
@[simp] theorem setPc_mem (a : Word) : (s.setPc a).mem = s.mem := rfl
@[simp] theorem setPc_fb (a : Word) : (s.setPc a).fb = s.fb := rfl
@[simp] theorem setPc_keys (a : Word) : (s.setPc a).keys = s.keys := rfl
@[simp] theorem setPc_run (a : Word) : (s.setPc a).run = s.run := rfl
@[simp] theorem setPc_skip (a : Word) : (s.setPc a).skip = s.skip := rfl
@[simp] theorem setPc_romSize (a : Word) : (s.setPc a).romSize = s.romSize := rfl
@[simp] theorem setPc_config (a : Word) : (s.setPc a).config = s.config := rfl
@[simp] theorem setPc_draws (a : Word) : (s.setPc a).draws = s.draws := rfl
@[simp] theorem setPc_schedule (a : Word) : (s.setPc a).schedule = s.schedule := rfl
@[simp] theorem setPc_trace (a : Word) : (s.setPc a).trace = s.trace := rfl
@[simp] theorem setPc_reg (a : Word) (r : RegIdx) : (s.setPc a).reg r = s.reg r := rfl
@[simp] theorem setPc_readByte (a : Word) (n : Nat) : (s.setPc a).readByte n = s.readByte n := rfl

/-! ### setStack -/

@[simp] theorem setStack_v (a : List Word) : (s.setStack a).v = s.v := rfl
@[simp] theorem setStack_i (a : List Word) : (s.setStack a).i = s.i := rfl
@[simp] theorem setStack_pc (a : List Word) : (s.setStack a).pc = s.pc := rfl
@[simp] theorem setStack_stack (a : List Word) : (s.setStack a).stack = a := rfl
@[simp] theorem setStack_dt (a : List Word) : (s.setStack a).dt = s.dt := rfl
@[simp] theorem setStack_st (a : List Word) : (s.setStack a).st = s.st := rfl
@[simp] theorem setStack_snd (a : List Word) : (s.setStack a).snd = s.snd := rfl
@[simp] theorem setStack_mem (a : List Word) : (s.setStack a).mem = s.mem := rfl
@[simp] theorem setStack_fb (a : List Word) : (s.setStack a).fb = s.fb := rfl
@[simp] theorem setStack_keys (a : List Word) : (s.setStack a).keys = s.keys := rfl
@[simp] theorem setStack_run (a : List Word) : (s.setStack a).run = s.run := rfl
@[simp] theorem setStack_skip (a : List Word) : (s.setStack a).skip = s.skip := rfl
@[simp] theorem setStack_romSize (a : List Word) : (s.setStack a).romSize = s.romSize := rfl
@[simp] theorem setStack_config (a : List Word) : (s.setStack a).config = s.config := rfl
@[simp] theorem setStack_draws (a : List Word) : (s.setStack a).draws = s.draws := rfl
@[simp] theorem setStack_schedule (a : List Word) : (s.setStack a).schedule = s.schedule := rfl
@[simp] theorem setStack_trace (a : List Word) : (s.setStack a).trace = s.trace := rfl
@[simp] theorem setStack_reg (a : List Word) (r : RegIdx) : (s.setStack a).reg r = s.reg r := rfl
@[simp] theorem setStack_readByte (a : List Word) (n : Nat) : (s.setStack a).readByte n = s.readByte n := rfl

/-! ### setDt -/

@[simp] theorem setDt_v (a : Byte) : (s.setDt a).v = s.v := rfl
@[simp] theorem setDt_i (a : Byte) : (s.setDt a).i = s.i := rfl
@[simp] theorem setDt_pc (a : Byte) : (s.setDt a).pc = s.pc := rfl
@[simp] theorem setDt_stack (a : Byte) : (s.setDt a).stack = s.stack := rfl
@[simp] theorem setDt_dt (a : Byte) : (s.setDt a).dt = a := rfl
@[simp] theorem setDt_st (a : Byte) : (s.setDt a).st = s.st := rfl
@[simp] theorem setDt_snd (a : Byte) : (s.setDt a).snd = s.snd := rfl
@[simp] theorem setDt_mem (a : Byte) : (s.setDt a).mem = s.mem := rfl
@[simp] theorem setDt_fb (a : Byte) : (s.setDt a).fb = s.fb := rfl
@[simp] theorem setDt_keys (a : Byte) : (s.setDt a).keys = s.keys := rfl
@[simp] theorem setDt_run (a : Byte) : (s.setDt a).run = s.run := rfl
@[simp] theorem setDt_skip (a : Byte) : (s.setDt a).skip = s.skip := rfl
@[simp] theorem setDt_romSize (a : Byte) : (s.setDt a).romSize = s.romSize := rfl
@[simp] theorem setDt_config (a : Byte) : (s.setDt a).config = s.config := rfl
@[simp] theorem setDt_draws (a : Byte) : (s.setDt a).draws = s.draws := rfl
@[simp] theorem setDt_schedule (a : Byte) : (s.setDt a).schedule = s.schedule := rfl
@[simp] theorem setDt_trace (a : Byte) : (s.setDt a).trace = s.trace := rfl
@[simp] theorem setDt_reg (a : Byte) (r : RegIdx) : (s.setDt a).reg r = s.reg r := rfl
@[simp] theorem setDt_readByte (a : Byte) (n : Nat) : (s.setDt a).readByte n = s.readByte n := rfl

/-! ### setSt -/

@[simp] theorem setSt_v (a : Byte) : (s.setSt a).v = s.v := rfl
@[simp] theorem setSt_i (a : Byte) : (s.setSt a).i = s.i := rfl
@[simp] theorem setSt_pc (a : Byte) : (s.setSt a).pc = s.pc := rfl
@[simp] theorem setSt_stack (a : Byte) : (s.setSt a).stack = s.stack := rfl
@[simp] theorem setSt_dt (a : Byte) : (s.setSt a).dt = s.dt := rfl
@[simp] theorem setSt_st (a : Byte) : (s.setSt a).st = a := rfl
@[simp] theorem setSt_snd (a : Byte) : (s.setSt a).snd = s.snd := rfl
@[simp] theorem setSt_mem (a : Byte) : (s.setSt a).mem = s.mem := rfl
@[simp] theorem setSt_fb (a : Byte) : (s.setSt a).fb = s.fb := rfl
@[simp] theorem setSt_keys (a : Byte) : (s.setSt a).keys = s.keys := rfl
@[simp] theorem setSt_run (a : Byte) : (s.setSt a).run = s.run := rfl
@[simp] theorem setSt_skip (a : Byte) : (s.setSt a).skip = s.skip := rfl
@[simp] theorem setSt_romSize (a : Byte) : (s.setSt a).romSize = s.romSize := rfl
@[simp] theorem setSt_config (a : Byte) : (s.setSt a).config = s.config := rfl
@[simp] theorem setSt_draws (a : Byte) : (s.setSt a).draws = s.draws := rfl
@[simp] theorem setSt_schedule (a : Byte) : (s.setSt a).schedule = s.schedule := rfl
@[simp] theorem setSt_trace (a : Byte) : (s.setSt a).trace = s.trace := rfl
@[simp] theorem setSt_reg (a : Byte) (r : RegIdx) : (s.setSt a).reg r = s.reg r := rfl
@[simp] theorem setSt_readByte (a : Byte) (n : Nat) : (s.setSt a).readByte n = s.readByte n := rfl

/-! ### setSnd -/

@[simp] theorem setSnd_v (a : Bool) : (s.setSnd a).v = s.v := rfl
@[simp] theorem setSnd_i (a : Bool) : (s.setSnd a).i = s.i := rfl
@[simp] theorem setSnd_pc (a : Bool) : (s.setSnd a).pc = s.pc := rfl
@[simp] theorem setSnd_stack (a : Bool) : (s.setSnd a).stack = s.stack := rfl
@[simp] theorem setSnd_dt (a : Bool) : (s.setSnd a).dt = s.dt := rfl
@[simp] theorem setSnd_st (a : Bool) : (s.setSnd a).st = s.st := rfl
@[simp] theorem setSnd_snd (a : Bool) : (s.setSnd a).snd = a := rfl
@[simp] theorem setSnd_mem (a : Bool) : (s.setSnd a).mem = s.mem := rfl
@[simp] theorem setSnd_fb (a : Bool) : (s.setSnd a).fb = s.fb := rfl
@[simp] theorem setSnd_keys (a : Bool) : (s.setSnd a).keys = s.keys := rfl
@[simp] theorem setSnd_run (a : Bool) : (s.setSnd a).run = s.run := rfl
@[simp] theorem setSnd_skip (a : Bool) : (s.setSnd a).skip = s.skip := rfl
@[simp] theorem setSnd_romSize (a : Bool) : (s.setSnd a).romSize = s.romSize := rfl
@[simp] theorem setSnd_config (a : Bool) : (s.setSnd a).config = s.config := rfl
@[simp] theorem setSnd_draws (a : Bool) : (s.setSnd a).draws = s.draws := rfl
@[simp] theorem setSnd_schedule (a : Bool) : (s.setSnd a).schedule = s.schedule := rfl
@[simp] theorem setSnd_trace (a : Bool) : (s.setSnd a).trace = s.trace := rfl
@[simp] theorem setSnd_reg (a : Bool) (r : RegIdx) : (s.setSnd a).reg r = s.reg r := rfl
@[simp] theorem setSnd_readByte (a : Bool) (n : Nat) : (s.setSnd a).readByte n = s.readByte n := rfl

/-! ### setMem -/

@[simp] theorem setMem_v (a : Memory) : (s.setMem a).v = s.v := rfl
@[simp] theorem setMem_i (a : Memory) : (s.setMem a).i = s.i := rfl
@[simp] theorem setMem_pc (a : Memory) : (s.setMem a).pc = s.pc := rfl
@[simp] theorem setMem_stack (a : Memory) : (s.setMem a).stack = s.stack := rfl
@[simp] theorem setMem_dt (a : Memory) : (s.setMem a).dt = s.dt := rfl
@[simp] theorem setMem_st (a : Memory) : (s.setMem a).st = s.st := rfl
@[simp] theorem setMem_snd (a : Memory) : (s.setMem a).snd = s.snd := rfl
@[simp] theorem setMem_mem (a : Memory) : (s.setMem a).mem = a := rfl
@[simp] theorem setMem_fb (a : Memory) : (s.setMem a).fb = s.fb := rfl
@[simp] theorem setMem_keys (a : Memory) : (s.setMem a).keys = s.keys := rfl
@[simp] theorem setMem_run (a : Memory) : (s.setMem a).run = s.run := rfl
@[simp] theorem setMem_skip (a : Memory) : (s.setMem a).skip = s.skip := rfl
@[simp] theorem setMem_romSize (a : Memory) : (s.setMem a).romSize = s.romSize := rfl
@[simp] theorem setMem_config (a : Memory) : (s.setMem a).config = s.config := rfl
@[simp] theorem setMem_draws (a : Memory) : (s.setMem a).draws = s.draws := rfl
@[simp] theorem setMem_schedule (a : Memory) : (s.setMem a).schedule = s.schedule := rfl
@[simp] theorem setMem_trace (a : Memory) : (s.setMem a).trace = s.trace := rfl
@[simp] theorem setMem_reg (a : Memory) (r : RegIdx) : (s.setMem a).reg r = s.reg r := rfl

/-! ### setFb -/

@[simp] theorem setFb_v (a : Framebuffer) : (s.setFb a).v = s.v := rfl
@[simp] theorem setFb_i (a : Framebuffer) : (s.setFb a).i = s.i := rfl
@[simp] theorem setFb_pc (a : Framebuffer) : (s.setFb a).pc = s.pc := rfl
@[simp] theorem setFb_stack (a : Framebuffer) : (s.setFb a).stack = s.stack := rfl
@[simp] theorem setFb_dt (a : Framebuffer) : (s.setFb a).dt = s.dt := rfl
@[simp] theorem setFb_st (a : Framebuffer) : (s.setFb a).st = s.st := rfl
@[simp] theorem setFb_snd (a : Framebuffer) : (s.setFb a).snd = s.snd := rfl
@[simp] theorem setFb_mem (a : Framebuffer) : (s.setFb a).mem = s.mem := rfl
@[simp] theorem setFb_fb (a : Framebuffer) : (s.setFb a).fb = a := rfl
@[simp] theorem setFb_keys (a : Framebuffer) : (s.setFb a).keys = s.keys := rfl
@[simp] theorem setFb_run (a : Framebuffer) : (s.setFb a).run = s.run := rfl
@[simp] theorem setFb_skip (a : Framebuffer) : (s.setFb a).skip = s.skip := rfl
@[simp] theorem setFb_romSize (a : Framebuffer) : (s.setFb a).romSize = s.romSize := rfl
@[simp] theorem setFb_config (a : Framebuffer) : (s.setFb a).config = s.config := rfl
@[simp] theorem setFb_draws (a : Framebuffer) : (s.setFb a).draws = s.draws := rfl
@[simp] theorem setFb_schedule (a : Framebuffer) : (s.setFb a).schedule = s.schedule := rfl
@[simp] theorem setFb_trace (a : Framebuffer) : (s.setFb a).trace = s.trace := rfl
@[simp] theorem setFb_reg (a : Framebuffer) (r : RegIdx) : (s.setFb a).reg r = s.reg r := rfl
@[simp] theorem setFb_readByte (a : Framebuffer) (n : Nat) : (s.setFb a).readByte n = s.readByte n := rfl

/-! ### setKeys -/

@[simp] theorem setKeys_v (a : BitVec 16) : (s.setKeys a).v = s.v := rfl
@[simp] theorem setKeys_i (a : BitVec 16) : (s.setKeys a).i = s.i := rfl
@[simp] theorem setKeys_pc (a : BitVec 16) : (s.setKeys a).pc = s.pc := rfl
@[simp] theorem setKeys_stack (a : BitVec 16) : (s.setKeys a).stack = s.stack := rfl
@[simp] theorem setKeys_dt (a : BitVec 16) : (s.setKeys a).dt = s.dt := rfl
@[simp] theorem setKeys_st (a : BitVec 16) : (s.setKeys a).st = s.st := rfl
@[simp] theorem setKeys_snd (a : BitVec 16) : (s.setKeys a).snd = s.snd := rfl
@[simp] theorem setKeys_mem (a : BitVec 16) : (s.setKeys a).mem = s.mem := rfl
@[simp] theorem setKeys_fb (a : BitVec 16) : (s.setKeys a).fb = s.fb := rfl
@[simp] theorem setKeys_keys (a : BitVec 16) : (s.setKeys a).keys = a := rfl
@[simp] theorem setKeys_run (a : BitVec 16) : (s.setKeys a).run = s.run := rfl
@[simp] theorem setKeys_skip (a : BitVec 16) : (s.setKeys a).skip = s.skip := rfl
@[simp] theorem setKeys_romSize (a : BitVec 16) : (s.setKeys a).romSize = s.romSize := rfl
@[simp] theorem setKeys_config (a : BitVec 16) : (s.setKeys a).config = s.config := rfl
@[simp] theorem setKeys_draws (a : BitVec 16) : (s.setKeys a).draws = s.draws := rfl
@[simp] theorem setKeys_schedule (a : BitVec 16) : (s.setKeys a).schedule = s.schedule := rfl
@[simp] theorem setKeys_trace (a : BitVec 16) : (s.setKeys a).trace = s.trace := rfl
@[simp] theorem setKeys_reg (a : BitVec 16) (r : RegIdx) : (s.setKeys a).reg r = s.reg r := rfl
@[simp] theorem setKeys_readByte (a : BitVec 16) (n : Nat) : (s.setKeys a).readByte n = s.readByte n := rfl

/-! ### setRun -/

@[simp] theorem setRun_v (a : RunState) : (s.setRun a).v = s.v := rfl
@[simp] theorem setRun_i (a : RunState) : (s.setRun a).i = s.i := rfl
@[simp] theorem setRun_pc (a : RunState) : (s.setRun a).pc = s.pc := rfl
@[simp] theorem setRun_stack (a : RunState) : (s.setRun a).stack = s.stack := rfl
@[simp] theorem setRun_dt (a : RunState) : (s.setRun a).dt = s.dt := rfl
@[simp] theorem setRun_st (a : RunState) : (s.setRun a).st = s.st := rfl
@[simp] theorem setRun_snd (a : RunState) : (s.setRun a).snd = s.snd := rfl
@[simp] theorem setRun_mem (a : RunState) : (s.setRun a).mem = s.mem := rfl
@[simp] theorem setRun_fb (a : RunState) : (s.setRun a).fb = s.fb := rfl
@[simp] theorem setRun_keys (a : RunState) : (s.setRun a).keys = s.keys := rfl
@[simp] theorem setRun_run (a : RunState) : (s.setRun a).run = a := rfl
@[simp] theorem setRun_skip (a : RunState) : (s.setRun a).skip = s.skip := rfl
@[simp] theorem setRun_romSize (a : RunState) : (s.setRun a).romSize = s.romSize := rfl
@[simp] theorem setRun_config (a : RunState) : (s.setRun a).config = s.config := rfl
@[simp] theorem setRun_draws (a : RunState) : (s.setRun a).draws = s.draws := rfl
@[simp] theorem setRun_schedule (a : RunState) : (s.setRun a).schedule = s.schedule := rfl
@[simp] theorem setRun_trace (a : RunState) : (s.setRun a).trace = s.trace := rfl
@[simp] theorem setRun_reg (a : RunState) (r : RegIdx) : (s.setRun a).reg r = s.reg r := rfl
@[simp] theorem setRun_readByte (a : RunState) (n : Nat) : (s.setRun a).readByte n = s.readByte n := rfl

/-! ### setSkip -/

@[simp] theorem setSkip_v (a : Bool) : (s.setSkip a).v = s.v := rfl
@[simp] theorem setSkip_i (a : Bool) : (s.setSkip a).i = s.i := rfl
@[simp] theorem setSkip_pc (a : Bool) : (s.setSkip a).pc = s.pc := rfl
@[simp] theorem setSkip_stack (a : Bool) : (s.setSkip a).stack = s.stack := rfl
@[simp] theorem setSkip_dt (a : Bool) : (s.setSkip a).dt = s.dt := rfl
@[simp] theorem setSkip_st (a : Bool) : (s.setSkip a).st = s.st := rfl
@[simp] theorem setSkip_snd (a : Bool) : (s.setSkip a).snd = s.snd := rfl
@[simp] theorem setSkip_mem (a : Bool) : (s.setSkip a).mem = s.mem := rfl
@[simp] theorem setSkip_fb (a : Bool) : (s.setSkip a).fb = s.fb := rfl
@[simp] theorem setSkip_keys (a : Bool) : (s.setSkip a).keys = s.keys := rfl
@[simp] theorem setSkip_run (a : Bool) : (s.setSkip a).run = s.run := rfl
@[simp] theorem setSkip_skip (a : Bool) : (s.setSkip a).skip = a := rfl
@[simp] theorem setSkip_romSize (a : Bool) : (s.setSkip a).romSize = s.romSize := rfl
@[simp] theorem setSkip_config (a : Bool) : (s.setSkip a).config = s.config := rfl
@[simp] theorem setSkip_draws (a : Bool) : (s.setSkip a).draws = s.draws := rfl
@[simp] theorem setSkip_schedule (a : Bool) : (s.setSkip a).schedule = s.schedule := rfl
@[simp] theorem setSkip_trace (a : Bool) : (s.setSkip a).trace = s.trace := rfl
@[simp] theorem setSkip_reg (a : Bool) (r : RegIdx) : (s.setSkip a).reg r = s.reg r := rfl
@[simp] theorem setSkip_readByte (a : Bool) (n : Nat) : (s.setSkip a).readByte n = s.readByte n := rfl

/-! ### setRomSize -/

@[simp] theorem setRomSize_v (a : Nat) : (s.setRomSize a).v = s.v := rfl
@[simp] theorem setRomSize_i (a : Nat) : (s.setRomSize a).i = s.i := rfl
@[simp] theorem setRomSize_pc (a : Nat) : (s.setRomSize a).pc = s.pc := rfl
@[simp] theorem setRomSize_stack (a : Nat) : (s.setRomSize a).stack = s.stack := rfl
@[simp] theorem setRomSize_dt (a : Nat) : (s.setRomSize a).dt = s.dt := rfl
@[simp] theorem setRomSize_st (a : Nat) : (s.setRomSize a).st = s.st := rfl
@[simp] theorem setRomSize_snd (a : Nat) : (s.setRomSize a).snd = s.snd := rfl
@[simp] theorem setRomSize_mem (a : Nat) : (s.setRomSize a).mem = s.mem := rfl
@[simp] theorem setRomSize_fb (a : Nat) : (s.setRomSize a).fb = s.fb := rfl
@[simp] theorem setRomSize_keys (a : Nat) : (s.setRomSize a).keys = s.keys := rfl
@[simp] theorem setRomSize_run (a : Nat) : (s.setRomSize a).run = s.run := rfl
@[simp] theorem setRomSize_skip (a : Nat) : (s.setRomSize a).skip = s.skip := rfl
@[simp] theorem setRomSize_romSize (a : Nat) : (s.setRomSize a).romSize = a := rfl
@[simp] theorem setRomSize_config (a : Nat) : (s.setRomSize a).config = s.config := rfl
@[simp] theorem setRomSize_draws (a : Nat) : (s.setRomSize a).draws = s.draws := rfl
@[simp] theorem setRomSize_schedule (a : Nat) : (s.setRomSize a).schedule = s.schedule := rfl
@[simp] theorem setRomSize_trace (a : Nat) : (s.setRomSize a).trace = s.trace := rfl
@[simp] theorem setRomSize_reg (a : Nat) (r : RegIdx) : (s.setRomSize a).reg r = s.reg r := rfl
@[simp] theorem setRomSize_readByte (a : Nat) (n : Nat) : (s.setRomSize a).readByte n = s.readByte n := rfl

/-! ### setSchedule -/

@[simp] theorem setSchedule_v (a : List Transition) : (s.setSchedule a).v = s.v := rfl
@[simp] theorem setSchedule_i (a : List Transition) : (s.setSchedule a).i = s.i := rfl
@[simp] theorem setSchedule_pc (a : List Transition) : (s.setSchedule a).pc = s.pc := rfl
@[simp] theorem setSchedule_stack (a : List Transition) : (s.setSchedule a).stack = s.stack := rfl
@[simp] theorem setSchedule_dt (a : List Transition) : (s.setSchedule a).dt = s.dt := rfl
@[simp] theorem setSchedule_st (a : List Transition) : (s.setSchedule a).st = s.st := rfl
@[simp] theorem setSchedule_snd (a : List Transition) : (s.setSchedule a).snd = s.snd := rfl
@[simp] theorem setSchedule_mem (a : List Transition) : (s.setSchedule a).mem = s.mem := rfl
@[simp] theorem setSchedule_fb (a : List Transition) : (s.setSchedule a).fb = s.fb := rfl
@[simp] theorem setSchedule_keys (a : List Transition) : (s.setSchedule a).keys = s.keys := rfl
@[simp] theorem setSchedule_run (a : List Transition) : (s.setSchedule a).run = s.run := rfl
@[simp] theorem setSchedule_skip (a : List Transition) : (s.setSchedule a).skip = s.skip := rfl
@[simp] theorem setSchedule_romSize (a : List Transition) : (s.setSchedule a).romSize = s.romSize := rfl
@[simp] theorem setSchedule_config (a : List Transition) : (s.setSchedule a).config = s.config := rfl
@[simp] theorem setSchedule_draws (a : List Transition) : (s.setSchedule a).draws = s.draws := rfl
@[simp] theorem setSchedule_schedule (a : List Transition) : (s.setSchedule a).schedule = a := rfl
@[simp] theorem setSchedule_trace (a : List Transition) : (s.setSchedule a).trace = s.trace := rfl
@[simp] theorem setSchedule_reg (a : List Transition) (r : RegIdx) : (s.setSchedule a).reg r = s.reg r := rfl
@[simp] theorem setSchedule_readByte (a : List Transition) (n : Nat) : (s.setSchedule a).readByte n = s.readByte n := rfl

/-! ### countDraw -/

@[simp] theorem countDraw_v : s.countDraw.v = s.v := rfl
@[simp] theorem countDraw_i : s.countDraw.i = s.i := rfl
@[simp] theorem countDraw_pc : s.countDraw.pc = s.pc := rfl
@[simp] theorem countDraw_stack : s.countDraw.stack = s.stack := rfl
@[simp] theorem countDraw_dt : s.countDraw.dt = s.dt := rfl
@[simp] theorem countDraw_st : s.countDraw.st = s.st := rfl
@[simp] theorem countDraw_snd : s.countDraw.snd = s.snd := rfl
@[simp] theorem countDraw_mem : s.countDraw.mem = s.mem := rfl
@[simp] theorem countDraw_fb : s.countDraw.fb = s.fb := rfl
@[simp] theorem countDraw_keys : s.countDraw.keys = s.keys := rfl
@[simp] theorem countDraw_run : s.countDraw.run = s.run := rfl
@[simp] theorem countDraw_skip : s.countDraw.skip = s.skip := rfl
@[simp] theorem countDraw_romSize : s.countDraw.romSize = s.romSize := rfl
@[simp] theorem countDraw_config : s.countDraw.config = s.config := rfl
@[simp] theorem countDraw_draws : s.countDraw.draws = s.draws + 1 := rfl
@[simp] theorem countDraw_schedule : s.countDraw.schedule = s.schedule := rfl
@[simp] theorem countDraw_trace : s.countDraw.trace = s.trace := rfl
@[simp] theorem countDraw_reg (r : RegIdx) : s.countDraw.reg r = s.reg r := rfl
@[simp] theorem countDraw_readByte (n : Nat) : s.countDraw.readByte n = s.readByte n := rfl

/-! ### emit -/

@[simp] theorem emit_v (es : List OutputEvent) : (s.emit es).v = s.v := rfl
@[simp] theorem emit_i (es : List OutputEvent) : (s.emit es).i = s.i := rfl
@[simp] theorem emit_pc (es : List OutputEvent) : (s.emit es).pc = s.pc := rfl
@[simp] theorem emit_stack (es : List OutputEvent) : (s.emit es).stack = s.stack := rfl
@[simp] theorem emit_dt (es : List OutputEvent) : (s.emit es).dt = s.dt := rfl
@[simp] theorem emit_st (es : List OutputEvent) : (s.emit es).st = s.st := rfl
@[simp] theorem emit_snd (es : List OutputEvent) : (s.emit es).snd = s.snd := rfl
@[simp] theorem emit_mem (es : List OutputEvent) : (s.emit es).mem = s.mem := rfl
@[simp] theorem emit_fb (es : List OutputEvent) : (s.emit es).fb = s.fb := rfl
@[simp] theorem emit_keys (es : List OutputEvent) : (s.emit es).keys = s.keys := rfl
@[simp] theorem emit_run (es : List OutputEvent) : (s.emit es).run = s.run := rfl
@[simp] theorem emit_skip (es : List OutputEvent) : (s.emit es).skip = s.skip := rfl
@[simp] theorem emit_romSize (es : List OutputEvent) : (s.emit es).romSize = s.romSize := rfl
@[simp] theorem emit_config (es : List OutputEvent) : (s.emit es).config = s.config := rfl
@[simp] theorem emit_draws (es : List OutputEvent) : (s.emit es).draws = s.draws := rfl
@[simp] theorem emit_schedule (es : List OutputEvent) : (s.emit es).schedule = s.schedule := rfl
@[simp] theorem emit_trace (es : List OutputEvent) : (s.emit es).trace = s.trace ++ es := rfl
@[simp] theorem emit_reg (es : List OutputEvent) (r : RegIdx) : (s.emit es).reg r = s.reg r := rfl
@[simp] theorem emit_readByte (es : List OutputEvent) (n : Nat) : (s.emit es).readByte n = s.readByte n := rfl

/-! ### Registers after setReg and setRegs -/

theorem reg_setReg (x r : RegIdx) (b : Byte) : (s.setReg x b).reg r = if r = x then b else s.reg r := by
  simp only [State.reg, State.setReg, Vector.getElem_set, Fin.ext_iff, eq_comm]

@[simp] theorem reg_setReg_same (x : RegIdx) (b : Byte) : (s.setReg x b).reg x = b := by
  simp [reg_setReg]

theorem reg_setReg_other (x r : RegIdx) (b : Byte) (h : r ≠ x) : (s.setReg x b).reg r = s.reg r := by
  simp [reg_setReg, h]

@[simp] theorem setRegs_reg (a : Vector Byte 16) (r : RegIdx) : (s.setRegs a).reg r = a[r.val] := rfl

end Sys2Proof.Machine
end

