-- ==== Sys2Proof/Laws/Ops.lean ====
section
/-! SUPPORT. One lemma for each shared operation that says what it does, for proofs to cite in place of its
definition. -/

namespace Sys2Proof.Machine

variable (s t : State)

/-! ### advance -/

@[simp] theorem advance_v : (advance s).v = s.v := rfl
@[simp] theorem advance_i : (advance s).i = s.i := rfl
@[simp] theorem advance_pc : (advance s).pc = s.pc + 2 := rfl
@[simp] theorem advance_stack : (advance s).stack = s.stack := rfl
@[simp] theorem advance_dt : (advance s).dt = s.dt := rfl
@[simp] theorem advance_st : (advance s).st = s.st := rfl
@[simp] theorem advance_snd : (advance s).snd = s.snd := rfl
@[simp] theorem advance_mem : (advance s).mem = s.mem := rfl
@[simp] theorem advance_fb : (advance s).fb = s.fb := rfl
@[simp] theorem advance_keys : (advance s).keys = s.keys := rfl
@[simp] theorem advance_run : (advance s).run = s.run := rfl
@[simp] theorem advance_skip : (advance s).skip = s.skip := rfl
@[simp] theorem advance_romSize : (advance s).romSize = s.romSize := rfl
@[simp] theorem advance_config : (advance s).config = s.config := rfl
@[simp] theorem advance_draws : (advance s).draws = s.draws := rfl
@[simp] theorem advance_schedule : (advance s).schedule = s.schedule := rfl
@[simp] theorem advance_trace : (advance s).trace = s.trace := rfl
@[simp] theorem advance_reg (r : RegIdx) : (advance s).reg r = s.reg r := rfl
@[simp] theorem advance_readByte (a : Nat) : (advance s).readByte a = s.readByte a := rfl

/-! ### push -/

@[simp] theorem push_v (w : Word) : (push w s).v = s.v := rfl
@[simp] theorem push_i (w : Word) : (push w s).i = s.i := rfl
@[simp] theorem push_pc (w : Word) : (push w s).pc = s.pc := rfl
@[simp] theorem push_stack (w : Word) : (push w s).stack = s.stack ++ [w] := rfl
@[simp] theorem push_dt (w : Word) : (push w s).dt = s.dt := rfl
@[simp] theorem push_st (w : Word) : (push w s).st = s.st := rfl
@[simp] theorem push_snd (w : Word) : (push w s).snd = s.snd := rfl
@[simp] theorem push_mem (w : Word) : (push w s).mem = s.mem := rfl
@[simp] theorem push_fb (w : Word) : (push w s).fb = s.fb := rfl
@[simp] theorem push_keys (w : Word) : (push w s).keys = s.keys := rfl
@[simp] theorem push_run (w : Word) : (push w s).run = s.run := rfl
@[simp] theorem push_skip (w : Word) : (push w s).skip = s.skip := rfl
@[simp] theorem push_romSize (w : Word) : (push w s).romSize = s.romSize := rfl
@[simp] theorem push_config (w : Word) : (push w s).config = s.config := rfl
@[simp] theorem push_draws (w : Word) : (push w s).draws = s.draws := rfl
@[simp] theorem push_schedule (w : Word) : (push w s).schedule = s.schedule := rfl
@[simp] theorem push_trace (w : Word) : (push w s).trace = s.trace := rfl
@[simp] theorem push_reg (w : Word) (r : RegIdx) : (push w s).reg r = s.reg r := rfl
@[simp] theorem push_readByte (w : Word) (a : Nat) : (push w s).readByte a = s.readByte a := rfl

/-! ### halt -/

@[simp] theorem halt_v (c : HaltCause) : (halt c s).v = s.v := rfl
@[simp] theorem halt_i (c : HaltCause) : (halt c s).i = s.i := rfl
@[simp] theorem halt_pc (c : HaltCause) : (halt c s).pc = s.pc := rfl
@[simp] theorem halt_stack (c : HaltCause) : (halt c s).stack = s.stack := rfl
@[simp] theorem halt_dt (c : HaltCause) : (halt c s).dt = s.dt := rfl
@[simp] theorem halt_st (c : HaltCause) : (halt c s).st = s.st := rfl
@[simp] theorem halt_snd (c : HaltCause) : (halt c s).snd = s.snd := rfl
@[simp] theorem halt_mem (c : HaltCause) : (halt c s).mem = s.mem := rfl
@[simp] theorem halt_fb (c : HaltCause) : (halt c s).fb = s.fb := rfl
@[simp] theorem halt_keys (c : HaltCause) : (halt c s).keys = s.keys := rfl
@[simp] theorem halt_run (c : HaltCause) : (halt c s).run = .halted c := rfl
@[simp] theorem halt_skip (c : HaltCause) : (halt c s).skip = s.skip := rfl
@[simp] theorem halt_romSize (c : HaltCause) : (halt c s).romSize = s.romSize := rfl
@[simp] theorem halt_config (c : HaltCause) : (halt c s).config = s.config := rfl
@[simp] theorem halt_draws (c : HaltCause) : (halt c s).draws = s.draws := rfl
@[simp] theorem halt_schedule (c : HaltCause) : (halt c s).schedule = s.schedule := rfl
@[simp] theorem halt_trace (c : HaltCause) : (halt c s).trace = s.trace := rfl
@[simp] theorem halt_reg (c : HaltCause) (r : RegIdx) : (halt c s).reg r = s.reg r := rfl
@[simp] theorem halt_readByte (c : HaltCause) (a : Nat) : (halt c s).readByte a = s.readByte a := rfl

/-! ### storeBytes -/

@[simp] theorem storeBytes_v (a : Nat) (bs : List Byte) : (s.storeBytes a bs).v = s.v := rfl
@[simp] theorem storeBytes_i (a : Nat) (bs : List Byte) : (s.storeBytes a bs).i = s.i := rfl
@[simp] theorem storeBytes_pc (a : Nat) (bs : List Byte) : (s.storeBytes a bs).pc = s.pc := rfl
@[simp] theorem storeBytes_stack (a : Nat) (bs : List Byte) : (s.storeBytes a bs).stack = s.stack := rfl
@[simp] theorem storeBytes_dt (a : Nat) (bs : List Byte) : (s.storeBytes a bs).dt = s.dt := rfl
@[simp] theorem storeBytes_st (a : Nat) (bs : List Byte) : (s.storeBytes a bs).st = s.st := rfl
@[simp] theorem storeBytes_snd (a : Nat) (bs : List Byte) : (s.storeBytes a bs).snd = s.snd := rfl
@[simp] theorem storeBytes_mem (a : Nat) (bs : List Byte) : (s.storeBytes a bs).mem = Memory.writeList s.mem a bs := rfl
@[simp] theorem storeBytes_fb (a : Nat) (bs : List Byte) : (s.storeBytes a bs).fb = s.fb := rfl
@[simp] theorem storeBytes_keys (a : Nat) (bs : List Byte) : (s.storeBytes a bs).keys = s.keys := rfl
@[simp] theorem storeBytes_run (a : Nat) (bs : List Byte) : (s.storeBytes a bs).run = s.run := rfl
@[simp] theorem storeBytes_skip (a : Nat) (bs : List Byte) : (s.storeBytes a bs).skip = s.skip := rfl
@[simp] theorem storeBytes_romSize (a : Nat) (bs : List Byte) : (s.storeBytes a bs).romSize = s.romSize := rfl
@[simp] theorem storeBytes_config (a : Nat) (bs : List Byte) : (s.storeBytes a bs).config = s.config := rfl
@[simp] theorem storeBytes_draws (a : Nat) (bs : List Byte) : (s.storeBytes a bs).draws = s.draws := rfl
@[simp] theorem storeBytes_schedule (a : Nat) (bs : List Byte) : (s.storeBytes a bs).schedule = s.schedule := rfl
@[simp] theorem storeBytes_trace (a : Nat) (bs : List Byte) : (s.storeBytes a bs).trace = s.trace := rfl
@[simp] theorem storeBytes_reg (a : Nat) (bs : List Byte) (r : RegIdx) : (s.storeBytes a bs).reg r = s.reg r := rfl

/-- A read after a store of bytes in memory (R53, R57). -/
theorem storeBytes_readByte {s : State} {a : Nat} {bs : List Byte} (h : Memory.wf s.mem = true)
    (ha : a + bs.length ≤ memSize) (a' : Nat) :
    (s.storeBytes a bs).readByte a' =
      if a ≤ a' ∧ a' < a + bs.length then bs.getD (a' - a) 0 else s.readByte a' :=
  read_writeList h ha a'

theorem storeBytes_readByte_outside {s : State} {a : Nat} {bs : List Byte} (h : Memory.wf s.mem = true)
    (ha : a + bs.length ≤ memSize) (a' : Nat) (hout : a' < a ∨ a + bs.length ≤ a') :
    (s.storeBytes a bs).readByte a' = s.readByte a' :=
  read_writeList_outside h ha a' hout

/-! ### Operands -/

@[simp] theorem length_bcdDigits (b : Byte) : (bcdDigits b).length = 3 := rfl

@[simp] theorem length_firstRegs (x : RegIdx) : (firstRegs s x).length = x.val + 1 := by
  have := x.isLt
  simp only [firstRegs, regCount, List.length_take, Vector.length_toList]
  omega

/-- The stored list pairs V[r] with place r (R59, R176). -/
theorem getD_firstRegs (x r : RegIdx) (h : r ≤ x) : (firstRegs s x).getD r.val 0 = s.reg r := by
  have hr : r.val < x.val + 1 := Nat.lt_succ_of_le (Fin.le_def.mp h)
  simp [List.getD, firstRegs, regCount, hr, State.reg]

/-- V after a load: the bytes from I on in V[0..X], the others as they were (R177). -/
theorem getElem_loadedRegs (x r : RegIdx) :
    (loadedRegs s x)[r.val] = if r.val ≤ x.val then s.readByte (dataAddress s + r.val) else s.reg r := by
  simp [loadedRegs]

/-! ### Skips (R103, R120) -/

/-- A skip from a state with SKIP = 0 moves PC by 4 or 2 and does nothing else. -/
theorem skipOn_eq (c : Bool) (h : s.skip = false) :
    skipOn c s = .next (s.setPc (if c then s.pc + 4 else s.pc + 2)) := by
  have h4 : s.pc + 2#16 + 2#16 = s.pc + 4#16 := by
    rw [BitVec.add_assoc]
    rfl
  cases c
  · simp [skipOn, skipWhen, skipAdvance, h, advance]
  · simp [skipOn, skipWhen, skipAdvance, advance, State.setPc, State.setSkip, h4, ← h]

/-! ### Flags (R22, R140) -/

@[simp] theorem flagByte_true : flagByte true = 1 := rfl
@[simp] theorem flagByte_false : flagByte false = 0 := rfl

/-- VF is written last. -/
@[simp] theorem writeWithFlag_vf (x : RegIdx) (b : Byte) (f : Bool) :
    (writeWithFlag x b f s).reg vf = flagByte f := by
  simp [writeWithFlag]

theorem writeWithFlag_reg (x r : RegIdx) (b : Byte) (f : Bool) (h : r ≠ vf) :
    (writeWithFlag x b f s).reg r = if r = x then b else s.reg r := by
  simp [writeWithFlag, reg_setReg, h]

/-! ### Ranges and fetch (R54, R56) -/

theorem inMemory_iff (a n : Nat) : inMemory a n = true ↔ n = 0 ∨ a + n ≤ memSize := by
  simp [inMemory]

theorem inMemory_eq_false_iff (a n : Nat) : inMemory a n = false ↔ 0 < n ∧ memSize < a + n := by
  rw [← Bool.not_eq_true, inMemory_iff]
  omega

/-- The range check: the effect when the range is in memory, the fault with all else as it was when it is not. -/
theorem withRange_in (n : Nat) (h : inMemory (dataAddress s) n = true) : withRange n s t = .next t := by
  simp [withRange, h]

/-- What a checked memory instruction can do. -/
theorem withRange_cases (n : Nat) :
    (inMemory (dataAddress s) n = true ∧ withRange n s t = .next t) ∨
    (inMemory (dataAddress s) n = false ∧ withRange n s t = .next (s.setRun (.fault .memOutOfRange))) := by
  cases h : inMemory (dataAddress s) n <;> simp [withRange, h, raiseFault]

theorem withRange_out (n : Nat) (h : inMemory (dataAddress s) n = false) :
    withRange n s t = .next (s.setRun (.fault .memOutOfRange)) := by
  simp [withRange, h, raiseFault]

theorem fetchWord_eq (h : s.pc.toNat + 1 < memSize) :
    fetchWord s = some (wordOfBytes (s.readByte s.pc.toNat) (s.readByte (s.pc.toNat + 1))) := by
  simp [fetchWord, h]

theorem fetchWord_eq_none_iff : fetchWord s = none ↔ memSize ≤ s.pc.toNat + 1 := by
  simp [fetchWord]

/-- The fetch reads PC and MEM only. -/
theorem fetchWord_congr (hpc : t.pc = s.pc) (hmem : t.mem = s.mem) : fetchWord t = fetchWord s := by
  simp [fetchWord, State.readByte, hpc, hmem]

theorem haltCheck_iff :
    haltCheck s = true ↔ memSize ≤ s.pc.toNat ∨ romStart + s.romSize + s.config.haltMargin.val ≤ s.pc.toNat := by
  simp only [haltCheck, Bool.or_eq_true, decide_eq_true_eq]
  rfl

/-! ### The engine step and the transition (R100, R265) -/

/-- What an engine step can do: nothing unless RUN = Running; halt; fault at the fetch; run the instruction at PC. -/
theorem engineStep_cases :
    (s.run ≠ .running ∧ engineStep s = .next s) ∨
    (s.run = .running ∧ haltCheck s = true ∧ engineStep s = .next (halt .pcExhausted s)) ∨
    (s.run = .running ∧ haltCheck s = false ∧ fetchWord s = none ∧
      engineStep s = .next (s.setRun (.fault .fetchOutOfRange))) ∨
    (∃ w, s.run = .running ∧ haltCheck s = false ∧ fetchWord s = some w ∧ engineStep s = exec (decodeWord w) s) := by
  cases hr : s.run with
  | running =>
    cases hh : haltCheck s
    · cases hf : fetchWord s <;> simp [engineStep, fetchAndExec, hr, hh, hf, raiseFault]
    · simp [engineStep, hr, hh]
  | awaitingKey x l => simp [engineStep, hr]
  | halted c => simp [engineStep, hr]
  | fault c => simp [engineStep, hr]

theorem engineStep_running {w : Word} (hr : s.run = .running) (hh : haltCheck s = false)
    (hf : fetchWord s = some w) : engineStep s = exec (decodeWord w) s := by
  simp [engineStep, fetchAndExec, hr, hh, hf]

/-- What a step can do: the first transition of the schedule, or an engine step when there is none. -/
theorem step_cases :
    (s.schedule = [] ∧ step s = engineStep s) ∨
    (∃ tr rest, s.schedule = tr :: rest ∧ step s = transition tr (s.setSchedule rest)) := by
  cases h : s.schedule with
  | nil => exact .inl ⟨rfl, by simp [step, nextTransition, h]⟩
  | cons tr rest => exact .inr ⟨tr, rest, rfl, by simp [step, nextTransition, h]⟩

/-! ### The other agents (R208 to R226) -/

theorem active_iff : s.active = true ↔ s.run = .running ∨ ∃ x l, s.run = .awaitingKey x l := by
  cases h : s.run <;> simp [State.active, h]

theorem countDown_toNat (b : Byte) : (countDown b).toNat = b.toNat - 1 := by
  unfold countDown
  split
  · simp_all
  · rename_i h
    have h1 : 0 < b.toNat := by
      rcases Nat.eq_zero_or_pos b.toNat with h0 | h0
      · exact absurd (BitVec.eq_of_toNat_eq (by simpa using h0)) h
      · exact h0
    have h2 := b.isLt
    have h3 : (1 : Byte).toNat = 1 := rfl
    rw [BitVec.toNat_sub, h3]
    omega

/-- A tick, when it is enabled. -/
theorem timerTick_active (h : s.active = true) :
    timerTick s = ((((s.setDt (countDown s.dt)).setSt (countDown s.st)).setSnd (decide (0 < (countDown s.st).toNat))).emit
      [if 0 < (countDown s.st).toNat then .playLoop else .stop]) := by
  by_cases hp : 0 < (countDown s.st).toNat <;> simp [timerTick, h, setSoundLevel, hp]

theorem timerTick_terminal (h : s.active = false) : timerTick s = s := by
  simp [timerTick, h]

/-- One bit of KEYS, the others left (R211). -/
theorem getLsbD_or_keyMask (ks : BitVec 16) (k j : KeyCode) :
    (ks ||| keyMask k).getLsbD j.val = (ks.getLsbD j.val || decide (j = k)) := by
  simp only [BitVec.getLsbD_or, keyMask]
  congr 1
  revert k j
  decide

/-- One bit of KEYS cleared, the others left (R212). -/
theorem getLsbD_and_not_keyMask (ks : BitVec 16) (k j : KeyCode) :
    (ks &&& ~~~ keyMask k).getLsbD j.val = (ks.getLsbD j.val && decide (j ≠ k)) := by
  simp only [BitVec.getLsbD_and, keyMask]
  congr 1
  revert k j
  decide

/-- The same in the spelling `simp` gives a bit of KEYS. -/
theorem getElem_or_keyMask (ks : BitVec 16) (k j : KeyCode) :
    (ks ||| keyMask k)[j.val] = (ks[j.val] || decide (j = k)) :=
  getLsbD_or_keyMask ks k j

theorem getElem_and_not_keyMask (ks : BitVec 16) (k j : KeyCode) :
    (ks &&& ~~~ keyMask k)[j.val] = (ks[j.val] && decide (j ≠ k)) :=
  getLsbD_and_not_keyMask ks k j

end Sys2Proof.Machine
end

