-- ==== Sys2Proof/Laws/PerInstr.lean ====
section
/-! SUPPORT. The families of LAWS.json, one lemma per constructor of Instr. -/

namespace Sys2Proof.Laws

/-- The word of a well-formed instruction is on the instruction's own row of the opcode table (R76, R84). -/
def RowMatch.Statement (i : Instr) : Prop :=
  wellFormed i = true → ∃ r ∈ opcodeTable, r.row = i.row ∧ encode i &&& r.mask = r.pattern

theorem RowMatch.cls : RowMatch.Statement .cls :=
  fun _ => ⟨⟨1, 0xFFFF#16, 0x00E0#16⟩, by decide, rfl, rfl⟩

theorem RowMatch.ret : RowMatch.Statement .ret :=
  fun _ => ⟨⟨2, 0xFFFF#16, 0x00EE#16⟩, by decide, rfl, rfl⟩

theorem RowMatch.sys (nnn : BitVec 12) : RowMatch.Statement (.sys nnn) :=
  fun _ => ⟨⟨3, 0xF000#16, 0x0000#16⟩, by decide, rfl, encodeA_and 0x0#4 nnn⟩

theorem RowMatch.jp (nnn : BitVec 12) : RowMatch.Statement (.jp nnn) :=
  fun _ => ⟨⟨4, 0xF000#16, 0x1000#16⟩, by decide, rfl, encodeA_and 0x1#4 nnn⟩

theorem RowMatch.call (nnn : BitVec 12) : RowMatch.Statement (.call nnn) :=
  fun _ => ⟨⟨5, 0xF000#16, 0x2000#16⟩, by decide, rfl, encodeA_and 0x2#4 nnn⟩

theorem RowMatch.seImm (x : RegIdx) (nn : Byte) : RowMatch.Statement (.seImm x nn) :=
  fun _ => ⟨⟨6, 0xF000#16, 0x3000#16⟩, by decide, rfl, encodeI_and 0x3#4 x nn⟩

theorem RowMatch.sneImm (x : RegIdx) (nn : Byte) : RowMatch.Statement (.sneImm x nn) :=
  fun _ => ⟨⟨7, 0xF000#16, 0x4000#16⟩, by decide, rfl, encodeI_and 0x4#4 x nn⟩

theorem RowMatch.seReg (x : RegIdx) (y : RegIdx) : RowMatch.Statement (.seReg x y) :=
  fun _ => ⟨⟨8, 0xF00F#16, 0x5000#16⟩, by decide, rfl, encodeR_andN 0x5#4 x y _⟩

theorem RowMatch.ldImm (x : RegIdx) (nn : Byte) : RowMatch.Statement (.ldImm x nn) :=
  fun _ => ⟨⟨9, 0xF000#16, 0x6000#16⟩, by decide, rfl, encodeI_and 0x6#4 x nn⟩

theorem RowMatch.addImm (x : RegIdx) (nn : Byte) : RowMatch.Statement (.addImm x nn) :=
  fun _ => ⟨⟨10, 0xF000#16, 0x7000#16⟩, by decide, rfl, encodeI_and 0x7#4 x nn⟩

theorem RowMatch.ldReg (x : RegIdx) (y : RegIdx) : RowMatch.Statement (.ldReg x y) :=
  fun _ => ⟨⟨11, 0xF00F#16, 0x8000#16⟩, by decide, rfl, encodeR_andN 0x8#4 x y _⟩

theorem RowMatch.orReg (x : RegIdx) (y : RegIdx) : RowMatch.Statement (.orReg x y) :=
  fun _ => ⟨⟨12, 0xF00F#16, 0x8001#16⟩, by decide, rfl, encodeR_andN 0x8#4 x y _⟩

theorem RowMatch.andReg (x : RegIdx) (y : RegIdx) : RowMatch.Statement (.andReg x y) :=
  fun _ => ⟨⟨13, 0xF00F#16, 0x8002#16⟩, by decide, rfl, encodeR_andN 0x8#4 x y _⟩

theorem RowMatch.xorReg (x : RegIdx) (y : RegIdx) : RowMatch.Statement (.xorReg x y) :=
  fun _ => ⟨⟨14, 0xF00F#16, 0x8003#16⟩, by decide, rfl, encodeR_andN 0x8#4 x y _⟩

theorem RowMatch.addReg (x : RegIdx) (y : RegIdx) : RowMatch.Statement (.addReg x y) :=
  fun _ => ⟨⟨15, 0xF00F#16, 0x8004#16⟩, by decide, rfl, encodeR_andN 0x8#4 x y _⟩

theorem RowMatch.subReg (x : RegIdx) (y : RegIdx) : RowMatch.Statement (.subReg x y) :=
  fun _ => ⟨⟨16, 0xF00F#16, 0x8005#16⟩, by decide, rfl, encodeR_andN 0x8#4 x y _⟩

theorem RowMatch.shr (x : RegIdx) (y : RegIdx) : RowMatch.Statement (.shr x y) :=
  fun _ => ⟨⟨17, 0xF00F#16, 0x8006#16⟩, by decide, rfl, encodeR_andN 0x8#4 x y _⟩

theorem RowMatch.subnReg (x : RegIdx) (y : RegIdx) : RowMatch.Statement (.subnReg x y) :=
  fun _ => ⟨⟨18, 0xF00F#16, 0x8007#16⟩, by decide, rfl, encodeR_andN 0x8#4 x y _⟩

theorem RowMatch.shl (x : RegIdx) (y : RegIdx) : RowMatch.Statement (.shl x y) :=
  fun _ => ⟨⟨19, 0xF00F#16, 0x800E#16⟩, by decide, rfl, encodeR_andN 0x8#4 x y _⟩

theorem RowMatch.sneReg (x : RegIdx) (y : RegIdx) : RowMatch.Statement (.sneReg x y) :=
  fun _ => ⟨⟨20, 0xF00F#16, 0x9000#16⟩, by decide, rfl, encodeR_andN 0x9#4 x y _⟩

theorem RowMatch.ldI (nnn : BitVec 12) : RowMatch.Statement (.ldI nnn) :=
  fun _ => ⟨⟨21, 0xF000#16, 0xA000#16⟩, by decide, rfl, encodeA_and 0xA#4 nnn⟩

theorem RowMatch.jpV0 (nnn : BitVec 12) : RowMatch.Statement (.jpV0 nnn) :=
  fun _ => ⟨⟨22, 0xF000#16, 0xB000#16⟩, by decide, rfl, encodeA_and 0xB#4 nnn⟩

theorem RowMatch.rnd (x : RegIdx) (nn : Byte) : RowMatch.Statement (.rnd x nn) :=
  fun _ => ⟨⟨23, 0xF000#16, 0xC000#16⟩, by decide, rfl, encodeI_and 0xC#4 x nn⟩

theorem RowMatch.drw (x : RegIdx) (y : RegIdx) (n : Fin 16) : RowMatch.Statement (.drw x y n) :=
  fun _ => ⟨⟨24, 0xF000#16, 0xD000#16⟩, by decide, rfl, encodeR_and 0xD#4 x y (nibble n)⟩

theorem RowMatch.skp (x : RegIdx) : RowMatch.Statement (.skp x) :=
  fun _ => ⟨⟨25, 0xF0FF#16, 0xE09E#16⟩, by decide, rfl, encodeK_and 0xE#4 x _⟩

theorem RowMatch.sknp (x : RegIdx) : RowMatch.Statement (.sknp x) :=
  fun _ => ⟨⟨26, 0xF0FF#16, 0xE0A1#16⟩, by decide, rfl, encodeK_and 0xE#4 x _⟩

theorem RowMatch.ldVxDt (x : RegIdx) : RowMatch.Statement (.ldVxDt x) :=
  fun _ => ⟨⟨27, 0xF0FF#16, 0xF007#16⟩, by decide, rfl, encodeK_and 0xF#4 x _⟩

theorem RowMatch.ldVxK (x : RegIdx) : RowMatch.Statement (.ldVxK x) :=
  fun _ => ⟨⟨28, 0xF0FF#16, 0xF00A#16⟩, by decide, rfl, encodeK_and 0xF#4 x _⟩

theorem RowMatch.ldDtVx (x : RegIdx) : RowMatch.Statement (.ldDtVx x) :=
  fun _ => ⟨⟨29, 0xF0FF#16, 0xF015#16⟩, by decide, rfl, encodeK_and 0xF#4 x _⟩

theorem RowMatch.ldStVx (x : RegIdx) : RowMatch.Statement (.ldStVx x) :=
  fun _ => ⟨⟨30, 0xF0FF#16, 0xF018#16⟩, by decide, rfl, encodeK_and 0xF#4 x _⟩

theorem RowMatch.addI (x : RegIdx) : RowMatch.Statement (.addI x) :=
  fun _ => ⟨⟨31, 0xF0FF#16, 0xF01E#16⟩, by decide, rfl, encodeK_and 0xF#4 x _⟩

theorem RowMatch.ldF (x : RegIdx) : RowMatch.Statement (.ldF x) :=
  fun _ => ⟨⟨32, 0xF0FF#16, 0xF029#16⟩, by decide, rfl, encodeK_and 0xF#4 x _⟩

theorem RowMatch.ldB (x : RegIdx) : RowMatch.Statement (.ldB x) :=
  fun _ => ⟨⟨33, 0xF0FF#16, 0xF033#16⟩, by decide, rfl, encodeK_and 0xF#4 x _⟩

theorem RowMatch.ldMemVx (x : RegIdx) : RowMatch.Statement (.ldMemVx x) :=
  fun _ => ⟨⟨34, 0xF0FF#16, 0xF055#16⟩, by decide, rfl, encodeK_and 0xF#4 x _⟩

theorem RowMatch.ldVxMem (x : RegIdx) : RowMatch.Statement (.ldVxMem x) :=
  fun _ => ⟨⟨35, 0xF0FF#16, 0xF065#16⟩, by decide, rfl, encodeK_and 0xF#4 x _⟩

theorem RowMatch.unrecognised (w : Word) : RowMatch.Statement (.unrecognised w) :=
  fun _ => ⟨⟨36, 0x0000#16, 0x0000#16⟩, by decide, rfl, BitVec.and_zero⟩

end Sys2Proof.Laws
end

