-- ==== Sys2Proof/Laws/Sprite.lean ====
section
/-! SUPPORT. Pixels, the pixels a sprite toggles, and the draw. -/

namespace Sys2Proof.Machine

theorem pixelAt_setPixelAt (fb : Framebuffer) (x x' : Fin 64) (y y' : Fin 32) (on : Bool) :
    pixelAt (setPixelAt fb x y on) x' y' = if x' = x ∧ y' = y then on else pixelAt fb x' y' := by
  simp only [pixelAt, setPixelAt, Vector.getElem_set]
  by_cases hy : y' = y
  · subst hy
    by_cases hx : x' = x
    · simp [hx]
    · simp [hx, Fin.val_ne_iff.mpr (Ne.symm hx)]
  · simp [hy, Fin.val_ne_iff.mpr (Ne.symm hy)]

@[simp] theorem pixelAt_blankScreen (x : Fin 64) (y : Fin 32) : pixelAt blankScreen x y = false := by
  simp [pixelAt, blankScreen]

/-- Two screens with the same pixels are the same screen. -/
theorem screen_ext {fb fb' : Framebuffer} (h : ∀ x y, pixelAt fb x y = pixelAt fb' x y) : fb = fb' := by
  apply Vector.ext
  intro y hy
  apply Vector.ext
  intro x hx
  exact h ⟨x, hx⟩ ⟨y, hy⟩

/-! ### The draw (R194, R195) -/

/-- The draw of distinct pixels from any start: each pixel listed is toggled and no other, the collision is whether
one of them was on, and each is reported with its new value. -/
theorem foldl_togglePixel (ps : List (Fin 64 × Fin 32)) (hn : ps.Nodup) (d : Draw) :
    (∀ x y, pixelAt (ps.foldl togglePixel d).fb x y = (pixelAt d.fb x y ^^ decide ((x, y) ∈ ps))) ∧
    (ps.foldl togglePixel d).collision = (d.collision || ps.any fun p => pixelAt d.fb p.1 p.2) ∧
    (ps.foldl togglePixel d).events = d.events ++ ps.map fun p => .setPixel p.1 p.2 (!pixelAt d.fb p.1 p.2) := by
  induction ps generalizing d with
  | nil => simp
  | cons p ps ih =>
    obtain ⟨hp, hn⟩ := List.nodup_cons.mp hn
    obtain ⟨h1, h2, h3⟩ := ih hn (togglePixel d p)
    have hother : ∀ q ∈ ps, pixelAt (togglePixel d p).fb q.1 q.2 = pixelAt d.fb q.1 q.2 := by
      intro q hq
      have hne : ¬(q.1 = p.1 ∧ q.2 = p.2) := fun h => hp (by rwa [← Prod.ext h.1 h.2])
      simp [togglePixel, pixelAt_setPixelAt, hne]
    refine ⟨fun x y => ?_, ?_, ?_⟩
    · rw [List.foldl_cons, h1]
      by_cases hxy : (x, y) = p
      · subst hxy
        simp [togglePixel, pixelAt_setPixelAt, hp]
      · have hne : ¬(x = p.1 ∧ y = p.2) := fun h => hxy (Prod.ext h.1 h.2)
        simp [togglePixel, pixelAt_setPixelAt, hne, hxy]
    · rw [List.foldl_cons, h2, List.any_cons]
      have : (ps.any fun q => pixelAt (togglePixel d p).fb q.1 q.2) = ps.any fun q => pixelAt d.fb q.1 q.2 := by
        rw [Bool.eq_iff_iff]
        simp only [List.any_eq_true]
        exact ⟨fun ⟨q, hq, h⟩ => ⟨q, hq, by rwa [← hother q hq]⟩, fun ⟨q, hq, h⟩ => ⟨q, hq, by rwa [hother q hq]⟩⟩
      rw [this]
      simp [togglePixel, Bool.or_assoc]
    · rw [List.foldl_cons, h3, List.map_cons]
      have : (ps.map fun q => OutputEvent.setPixel q.1 q.2 (!pixelAt (togglePixel d p).fb q.1 q.2)) =
          ps.map fun q => .setPixel q.1 q.2 (!pixelAt d.fb q.1 q.2) :=
        List.map_congr_left fun q hq => by rw [hother q hq]
      rw [this]
      simp [togglePixel]

theorem pixelAt_drawPixels {ps : List (Fin 64 × Fin 32)} (hn : ps.Nodup) (fb : Framebuffer) (x : Fin 64)
    (y : Fin 32) : pixelAt (drawPixels fb ps).fb x y = (pixelAt fb x y ^^ decide ((x, y) ∈ ps)) :=
  (foldl_togglePixel ps hn _).1 x y

theorem collision_drawPixels {ps : List (Fin 64 × Fin 32)} (hn : ps.Nodup) (fb : Framebuffer) :
    (drawPixels fb ps).collision = ps.any fun p => pixelAt fb p.1 p.2 := by
  simpa [drawPixels] using (foldl_togglePixel ps hn ⟨fb, false, []⟩).2.1

theorem events_drawPixels {ps : List (Fin 64 × Fin 32)} (hn : ps.Nodup) (fb : Framebuffer) :
    (drawPixels fb ps).events = ps.map fun p => .setPixel p.1 p.2 (!pixelAt fb p.1 p.2) := by
  simpa [drawPixels] using (foldl_togglePixel ps hn ⟨fb, false, []⟩).2.2

/-! ### Which pixels (R191, R193) -/

theorem mem_rowTargets (clip : Bool) (x0 py : Nat) (b : Byte) (p : Fin 64 × Fin 32) :
    p ∈ rowTargets clip x0 py b ↔
      ∃ col < 8, b.getLsbD (7 - col) = true ∧ spriteTarget clip (x0 + col) py = some p := by
  simp [rowTargets]

theorem mem_spriteTargets (clip : Bool) (x0 y0 : Nat) (bs : List Byte) (p : Fin 64 × Fin 32) :
    p ∈ spriteTargets clip x0 y0 bs ↔
      ∃ row, ∃ h : row < bs.length, p ∈ rowTargets clip x0 (y0 + row) bs[row] := by
  induction bs generalizing y0 with
  | nil => simp [spriteTargets]
  | cons b bs ih =>
    simp only [spriteTargets, List.mem_append, ih, List.length_cons]
    constructor
    · rintro (h | ⟨row, hr, h⟩)
      · exact ⟨0, by omega, by simpa using h⟩
      · exact ⟨row + 1, by omega, by simpa [Nat.add_assoc, Nat.add_comm 1] using h⟩
    · rintro ⟨row, hr, h⟩
      cases row with
      | zero => exact .inl (by simpa using h)
      | succ row => exact .inr ⟨row, by omega, by simpa [Nat.add_assoc, Nat.add_comm 1] using h⟩

end Sys2Proof.Machine
end

