-- ==== Sys2Proof/Tests/Slice0.lean ====
section
/-! SUPPORT. Tests. The expected results are the vectors of `95_test_vectors.md`, by their names there, and the words
are written out from the encodings of R76. The witnesses show that the hypotheses of the statements can be met, each
clause at a boundary of its range. -/

namespace Sys2Proof.Tests

open Sys2Proof.Machine

/-! ### Helpers -/

/-- The default configuration with sprites wrapped. -/
def plain : Config where
  vfReset := false
  incI := false
  clip := false
  shiftVx := true
  jumpVx := false
  haltMargin := 1
  stackDepth := none

/-- The reset state under a configuration. -/
def under (c : Config) : State := { State.reset with config := c }

/-- The reset state under `plain`. -/
def start : State := under plain

/-- What one step on the word `w`, put at PC, leaves. -/
def ran {α : Type} (w : Nat) (s : State) (f : State → α) : Option α :=
  match step (s.withFetchWord 16 w) with
  | .next t => some (f t)
  | .fault _ => none
  | .refused _ => none

/-- What one transition leaves. -/
def made {α : Type} (tr : Transition) (s : State) (f : State → α) : Option α :=
  match transition tr s with
  | .next t => some (f t)
  | .fault _ => none
  | .refused _ => none

/-- The state of an answer that is one. -/
def stateOf : Answer → State
  | .next t => t
  | .fault _ => start
  | .refused _ => start

/-! ### Well-formedness refuses -/

theorem test_wf_refuses_clear_as_legacy_call : wellFormed (.sys 0x0E0) = false := by decide
theorem test_wf_refuses_return_as_legacy_call : wellFormed (.sys 0x0EE) = false := by decide
theorem test_wf_refuses_recognised_word : wellFormed (.unrecognised 0x8AB4) = false := by decide
theorem test_wf_refuses_recognised_key_word : wellFormed (.unrecognised 0xF10A) = false := by decide
theorem test_wf_admits_neighbours : wellFormed (.sys 0x0E1) = true ∧ wellFormed (.unrecognised 0x8AB8) = true := by
  decide

/-! ### Decoding: one word of each row of R76 (DE1 to DE13) -/

theorem test_decode_group0 :
    decodeWord 0b0000_0000_1110_0000 = .cls ∧ decodeWord 0b0000_0000_1110_1110 = .ret ∧
    decodeWord 0b0000_0001_1110_0000 = .sys 0x1E0 := by decide

theorem test_decode_addresses :
    decodeWord 0b0001_1010_1011_1100 = .jp 0xABC ∧ decodeWord 0b0010_1010_1011_1100 = .call 0xABC ∧
    decodeWord 0b1010_0010_1111_0000 = .ldI 0x2F0 ∧ decodeWord 0b1011_1010_1011_1100 = .jpV0 0xABC := by decide

theorem test_decode_immediates :
    decodeWord 0b0011_1100_0111_1111 = .seImm 0xC 0x7F ∧ decodeWord 0b0100_1100_0111_1111 = .sneImm 0xC 0x7F ∧
    decodeWord 0b0110_1010_0010_1111 = .ldImm 0xA 0x2F ∧ decodeWord 0b0111_0001_0000_0010 = .addImm 1 0x02 ∧
    decodeWord 0b1100_0001_0000_1111 = .rnd 1 0x0F := by decide

theorem test_decode_register_skips :
    decodeWord 0b0101_1010_1011_0000 = .seReg 0xA 0xB ∧ decodeWord 0b1001_1010_1011_0000 = .sneReg 0xA 0xB := by decide

theorem test_decode_group8 :
    decodeWord 0b1000_1010_1011_0000 = .ldReg 0xA 0xB ∧ decodeWord 0b1000_1010_1011_0001 = .orReg 0xA 0xB ∧
    decodeWord 0b1000_1010_1011_0010 = .andReg 0xA 0xB ∧ decodeWord 0b1000_1010_1011_0011 = .xorReg 0xA 0xB ∧
    decodeWord 0b1000_1010_1011_0100 = .addReg 0xA 0xB ∧ decodeWord 0b1000_1010_1011_0101 = .subReg 0xA 0xB ∧
    decodeWord 0b1000_1010_1011_0110 = .shr 0xA 0xB ∧ decodeWord 0b1000_1010_1011_0111 = .subnReg 0xA 0xB ∧
    decodeWord 0b1000_1010_1011_1110 = .shl 0xA 0xB := by decide

theorem test_decode_draw : decodeWord 0b1101_0001_0010_0011 = .drw 1 2 3 := by decide

theorem test_decode_keys :
    decodeWord 0b1110_0001_1001_1110 = .skp 1 ∧ decodeWord 0b1110_0001_1010_0001 = .sknp 1 ∧
    decodeWord 0b1111_0001_0000_1010 = .ldVxK 1 := by decide

theorem test_decode_groupF :
    decodeWord 0b1111_0001_0000_0111 = .ldVxDt 1 ∧ decodeWord 0b1111_0001_0001_0101 = .ldDtVx 1 ∧
    decodeWord 0b1111_0001_0001_1000 = .ldStVx 1 ∧ decodeWord 0b1111_0001_0001_1110 = .addI 1 ∧
    decodeWord 0b1111_0001_0010_1001 = .ldF 1 ∧ decodeWord 0b1111_0001_0011_0011 = .ldB 1 ∧
    decodeWord 0b1111_0001_0101_0101 = .ldMemVx 1 ∧ decodeWord 0b1111_0001_0110_0101 = .ldVxMem 1 := by decide

theorem test_decode_unrecognised :
    decodeWord 0x8AB8 = .unrecognised 0x8AB8 ∧ decodeWord 0x5AB1 = .unrecognised 0x5AB1 ∧
    decodeWord 0x9ABF = .unrecognised 0x9ABF ∧ decodeWord 0xE100 = .unrecognised 0xE100 ∧
    decodeWord 0xF175 = .unrecognised 0xF175 := by decide

theorem test_decode_first_byte_is_high : decodeBytes [0x8A, 0xB4, 0x12] = .ok (.addReg 0xA 0xB, [0x12]) := rfl
theorem test_decode_one_byte_is_truncated : decodeBytes [0x8A] = .error .truncated := rfl
theorem test_decode_table_word : decodeTableWord 16 0x8AB4 = some (.addReg 0xA 0xB) := by decide

/-! ### Control flow (CF1 to CF17) -/

theorem test_cf1_jump : ran 0x1ABC start (fun t => (t.pc, t.stack)) = some (0xABC, []) := by decide
theorem test_cf4_call : ran 0x2300 start (fun t => (t.pc, t.stack)) = some (0x300, [0x202]) := by decide
theorem test_cf6_call_overflows :
    ran 0x2200 ((under { plain with stackDepth := some 2 }).setStack [0x202, 0x202])
      (fun t => (t.run, t.pc, t.stack)) = some (.fault .stackOverflow, 0x200, [0x202, 0x202]) := by decide
theorem test_cf7_return : ran 0x00EE (start.setStack [0x202, 0x30A]) (fun t => (t.pc, t.stack)) =
    some (0x30A, [0x202]) := by decide
theorem test_cf8_return_underflows : ran 0x00EE start (fun t => (t.run, t.pc)) =
    some (.fault .stackUnderflow, 0x200) := by decide
theorem test_cf10_jump_with_vx :
    ran 0xB300 (((under { plain with jumpVx := true }).setReg 0 0x10).setReg 3 0x04) (fun t => t.pc) =
      some 0x304 := by decide
theorem test_cf11_jump_leaves_memory : ran 0xBFFF (start.setReg 0 0xFF) (fun t => t.pc) = some 0x10FE := by decide
theorem test_cf14_legacy_call : ran 0x00E1 start (fun t => (t.pc, t.trace)) =
    some (0x202, [.log .legacyCall 0x200 0x00E1]) := by decide
theorem test_cf16_unrecognised : ran 0x8AB8 start (fun t => (t.pc, t.trace)) =
    some (0x202, [.log .unrecognised 0x200 0x8AB8]) := by decide

/-! ### The halt check (HC2, HC8, HC10 to HC13) -/

/-- A Running state at a PC, with a ROM size and a halt margin. -/
def atPc (rom pc : Nat) (margin : Fin 2) : State :=
  ((under { plain with haltMargin := margin }).setRomSize rom).setPc (BitVec.ofNat 16 pc)

theorem test_hc2_margin_decides : haltCheck (atPc 6 0x206 1) = false ∧ haltCheck (atPc 6 0x206 0) = true := by decide
theorem test_hc8_font_is_fetched : made .engineStep (atPc 6 0x050 1) (fun t => t.trace) =
    some [.log .unrecognised 0x050 0xF090] := by decide
theorem test_hc10_last_byte_faults : made .engineStep (atPc 3584 0xFFF 1) (fun t => (t.run, t.pc)) =
    some (.fault .fetchOutOfRange, 0xFFF) := by decide
theorem test_hc11_end_of_memory_halts : made .engineStep (atPc 3584 0x1000 1) (fun t => t.run) =
    some (.halted .pcExhausted) := by decide
theorem test_hc12_halt_comes_before_fault : made .engineStep (atPc 3582 0xFFF 1) (fun t => t.run) =
    some (.halted .pcExhausted) := by decide

/-! ### Skips (SK1 to SK19) -/

theorem test_sk1_equal : ran 0x3210 (start.setReg 2 0x10) (fun t => (t.pc, t.skip)) = some (0x204, false) := by decide
theorem test_sk2_different : ran 0x3210 (start.setReg 2 0x11) (fun t => t.pc) = some 0x202 := by decide
theorem test_sk4_not_equal : ran 0x4210 (start.setReg 2 0x11) (fun t => t.pc) = some 0x204 := by decide
theorem test_sk6_registers_differ : ran 0x5120 ((start.setReg 1 7).setReg 2 8) (fun t => t.pc) = some 0x202 := by decide
theorem test_sk7_registers_differ : ran 0x9120 ((start.setReg 1 7).setReg 2 8) (fun t => t.pc) = some 0x204 := by decide
theorem test_sk15_value_is_not_masked : ran 0xE09E ((start.setReg 0 0x15).setKeys 0x0020) (fun t => t.pc) =
    some 0x202 := by decide
theorem test_sk17_top_key : ran 0xE09E ((start.setReg 0 0x0F).setKeys 0x8000) (fun t => t.pc) = some 0x204 := by decide
theorem test_sk11_key_held : ran 0xE0A1 ((start.setReg 0 5).setKeys 0x0020) (fun t => t.pc) = some 0x202 := by decide
theorem test_sk16_no_key : ran 0xE0A1 ((start.setReg 0 0x15).setKeys 0xFFFF) (fun t => t.pc) = some 0x204 := by decide

/-! ### Load, arithmetic, logic, shift, random (AL1 to AL45) -/

theorem test_al1_load : ran 0x6A2F start (fun t => (t.reg 0xA, t.pc)) = some (0x2F, 0x202) := by decide
theorem test_al5_add_is_no_flag : ran 0x7F01 (start.setReg 0xF 0xFF) (fun t => t.reg 0xF) = some 0 := by decide
theorem test_al6_copy : ran 0x8120 (start.setReg 2 0x33) (fun t => t.reg 1) = some 0x33 := by decide
theorem test_al7_or_clears_flag :
    ran 0x8121 ((((under { plain with vfReset := true }).setReg 1 0x0C).setReg 2 0x0A).setReg 0xF 1)
      (fun t => (t.reg 1, t.reg 0xF)) = some (0x0E, 0) := by decide
theorem test_al11_and_reads_cleared_flag :
    ran 0x81F2 (((under { plain with vfReset := true }).setReg 1 0x0C).setReg 0xF 0xFF)
      (fun t => (t.reg 1, t.reg 0xF)) = some (0, 0) := by decide
theorem test_al9_xor : ran 0x8123 (((start.setReg 1 0x0C).setReg 2 0x0A).setReg 0xF 1) (fun t => (t.reg 1, t.reg 0xF)) =
    some (0x06, 1) := by decide
theorem test_al14_sum_of_255 : ran 0x8124 ((start.setReg 1 0xF0).setReg 2 0x0F) (fun t => (t.reg 1, t.reg 0xF)) =
    some (0xFF, 0) := by decide
theorem test_al17_flag_is_last : ran 0x8F14 ((start.setReg 0xF 0xF0).setReg 1 0x20) (fun t => t.reg 0xF) = some 1 := by
  decide
theorem test_al20_borrow : ran 0x8125 ((start.setReg 1 0x05).setReg 2 0x0A) (fun t => (t.reg 1, t.reg 0xF)) =
    some (0xFB, 0) := by decide
theorem test_al22_equal_operands : ran 0x8125 ((start.setReg 1 0x0A).setReg 2 0x0A) (fun t => (t.reg 1, t.reg 0xF)) =
    some (0, 1) := by decide
theorem test_al27_shift_right : ran 0x8126 ((start.setReg 1 0x05).setReg 2 0xFF)
    (fun t => (t.reg 1, t.reg 2, t.reg 0xF)) = some (0x02, 0xFF, 1) := by decide
theorem test_al32_shift_right_of_vy :
    ran 0x8126 (((under { plain with shiftVx := false }).setReg 1 0xFF).setReg 2 0x04)
      (fun t => (t.reg 1, t.reg 2, t.reg 0xF)) = some (0x02, 0x04, 0) := by decide
theorem test_al33_reverse_borrow : ran 0x8127 ((start.setReg 1 0x0A).setReg 2 0x05) (fun t => (t.reg 1, t.reg 0xF)) =
    some (0xFB, 0) := by decide
theorem test_al38_shift_left : ran 0x812E (start.setReg 1 0x81) (fun t => (t.reg 1, t.reg 0xF)) = some (0x02, 1) := by
  decide
theorem test_al42_flag_is_last : ran 0x8F0E (start.setReg 0xF 0x40) (fun t => t.reg 0xF) = some 0 := by decide
/-- AL44, with the draw it names. -/
theorem test_al44_masked_draw : (stateOf (rndWith 0xA7 1 0x0F start)).reg 1 = 0x07 := by decide

/-! ### Index and memory (IM1 to IM21) -/

theorem test_im1_index : ran 0xA2F0 start (fun t => t.i) = some 0x2F0 := by decide
theorem test_im4_index_wraps : ran 0xF21E ((start.setI 0xFFFF).setReg 2 1) (fun t => (t.i, t.reg 0xF)) =
    some (0, 0) := by decide
theorem test_im8_glyph_is_not_masked : ran 0xF329 (start.setReg 3 0xFF) (fun t => t.i) = some 0x54B := by decide
theorem test_im10_digits_at_the_end : ran 0xF033 ((start.setReg 0 0xFF).setI 0xFFD)
    (fun t => (t.loadBytes 0xFFD 3, t.i)) = some ([2, 5, 5], 0xFFD) := by decide
theorem test_im11_digits_past_the_end : ran 0xF033 ((start.setReg 0 0xFF).setI 0xFFE)
    (fun t => (t.run, t.pc, t.loadBytes 0xFFE 2)) = some (.fault .memOutOfRange, 0x200, [0, 0]) := by decide
theorem test_im14_store : ran 0xF255 ((((start.setReg 0 1).setReg 1 2).setReg 2 3).setReg 3 9 |>.setI 0x400)
    (fun t => (t.loadBytes 0x400 4, t.i)) = some ([1, 2, 3, 0], 0x400) := by decide
theorem test_im14_store_moves_index :
    ran 0xF255 ((under { plain with incI := true }).setI 0x400) (fun t => t.i) = some 0x403 := by decide
theorem test_im15_load : ran 0xF165 (((start.storeBytes 0x400 [0xAA, 0xBB, 0xCC]).setReg 2 0x77).setI 0x400)
    (fun t => (t.reg 0, t.reg 1, t.reg 2, t.i)) = some (0xAA, 0xBB, 0x77, 0x400) := by decide
theorem test_im19_load_past_the_end : ran 0xF065 ((start.setReg 0 5).setI 0x1000) (fun t => (t.run, t.reg 0)) =
    some (.fault .memOutOfRange, 5) := by decide

/-! ### Display (DP1 to DP16) -/

theorem test_dp1_clear :
    ran 0x00E0 (start.setFb (setPixelAt blankScreen 5 6 true)) (fun t => (pixelAt t.fb 5 6, t.trace)) =
      some (false, [.clear, .present]) := by decide
theorem test_dp5_collision :
    ran 0xD011 ((start.setFb (setPixelAt (setPixelAt blankScreen 1 0 true) 2 0 true)).setI 0x055)
      (fun t => (pixelAt t.fb 0 0, pixelAt t.fb 1 0, pixelAt t.fb 2 0, t.reg 0xF)) = some (false, true, false, 1) := by
  decide
theorem test_dp7_wrapped :
    (spriteTargets false 62 30 [0xF0, 0x90]) = [(62, 30), (63, 30), (0, 30), (1, 30), (62, 31), (1, 31)] := by decide
theorem test_dp8_clipped :
    (spriteTargets true 62 30 [0xF0, 0x90, 0x90]) = [(62, 30), (63, 30), (62, 31)] := by decide
theorem test_dp16_bit_order : rowTargets false 0 0 0x81 = [(0, 0), (7, 0)] := by decide

/-! ### Timers and keys (TK1 to TK20) -/

theorem test_tk1_read_timer : ran 0xF307 (start.setDt 0x1E) (fun t => (t.reg 3, t.dt)) = some (0x1E, 0x1E) := by decide
theorem test_tk2_set_timer : ran 0xF315 (start.setReg 3 0x3C) (fun t => t.dt) = some 0x3C := by decide
theorem test_tk3_set_sound : ran 0xF318 (start.setReg 3 5) (fun t => (t.st, t.snd)) = some (5, false) := by decide
theorem test_tk10_wait : ran 0xF50A (start.setReg 5 0x33) (fun t => (t.run, t.pc, t.reg 5)) =
    some (.awaitingKey 5 none, 0x200, 0x33) := by decide
theorem test_tk4_tick : made .timerTick ((start.setDt 0x3C).setSt 5) (fun t => (t.dt, t.st, t.snd, t.trace)) =
    some (0x3B, 4, true, [.playLoop]) := by decide
theorem test_tk5_tick_stops : made .timerTick ((start.setSt 1).setSnd true) (fun t => (t.dt, t.st, t.snd, t.trace)) =
    some (0, 0, false, [.stop]) := by decide
theorem test_tk11_latch : made (.keyDown 0xB) (start.setRun (.awaitingKey 5 none)) (fun t => (t.keys, t.run)) =
    some (0x0800, .awaitingKey 5 (some 0xB)) := by decide
theorem test_tk12_resolve : made (.keyUp 0xB) ((start.setRun (.awaitingKey 5 (some 0xB))).setKeys 0x0800)
    (fun t => (t.keys, t.reg 5, t.pc, t.run)) = some (0, 0x0B, 0x202, .running) := by decide
theorem test_tk13_stray_release : made (.keyUp 1) ((start.setRun (.awaitingKey 5 none)).setKeys 0x0002)
    (fun t => (t.keys, t.run)) = some (0, .awaitingKey 5 none) := by decide
theorem test_tk14_repeat : made (.keyDown 1) ((start.setRun (.awaitingKey 5 none)).setKeys 0x0002)
    (fun t => (t.keys, t.run)) = some (0x0002, .awaitingKey 5 none) := by decide
theorem test_tk17_quit : made .quit (start.setRun (.awaitingKey 5 (some 7))) (fun t => (t.run, t.pc)) =
    some (.halted .quit, 0x200) := by decide
theorem test_tk20_terminal : made (.keyDown 4) (start.setRun (.halted .quit)) (fun t => t.keys) = some 0 := by decide

/-! ### Reset and load (RS1 to RS4) -/

theorem test_rs1_font : State.reset.loadBytes 0x04F 2 = [0x00, 0xF0] ∧ State.reset.loadBytes 0x09F 2 = [0x80, 0x00] := by
  decide
theorem test_rs1_default_font_lists_nothing :
    (construct plain ⟨defaultFont.toArray, rfl⟩ 0).mem = [] := by decide +kernel
theorem test_rs2_load : (stateOf (loadRom [0x6A, 0x2F, 0x00] start)).loadBytes 0x200 3 = [0x6A, 0x2F, 0x00] ∧
    (stateOf (loadRom [0x6A, 0x2F, 0x00] start)).romSize = 3 := by decide
theorem test_quirk_word : { plain with incI := true }.quirkWord = 0b01010 := by decide

/-! ### Witnesses: encoding and the step -/

theorem witness_DecodeAfterEncode_sys : wellFormed (.sys 0xFFF) = true := by decide
theorem witness_DecodeAfterEncode_unrecognised : wellFormed (.unrecognised 0xFFFF) = true := by decide
theorem witness_FetchIsBigEndian : (atPc 3584 4094 1).pc.toNat + 1 < 4096 := by decide
theorem witness_FetchIsBigEndian_odd : (atPc 3584 0x201 1).pc.toNat + 1 < 4096 := by decide

/-- A state about to run the word 00E0 at the last place a word has, with a schedule. -/
def atLastWord (ts : List Transition) : State :=
  ((atPc 3584 4094 1).storeBytes 4094 [0x00, 0xE0]).setSchedule ts

theorem witness_StepRunsDecodedInstruction :
    (atLastWord []).run = .running ∧ (atLastWord []).pc.toNat + 1 < 4096 ∧
    (atLastWord []).pc.toNat < 0x200 + (atLastWord []).romSize + (atLastWord []).config.haltMargin.val ∧
    decodeBytes [(atLastWord []).readByte (atLastWord []).pc.toNat,
      (atLastWord []).readByte ((atLastWord []).pc.toNat + 1)] = .ok (.cls, []) ∧
    (atLastWord []).schedule = [] := ⟨rfl, by decide, by decide, rfl, rfl⟩
theorem witness_StepRunsDecodedInstruction_scheduled :
    (atLastWord [.engineStep, .quit]).run = .running ∧
    decodeBytes [(atLastWord [.engineStep, .quit]).readByte (atLastWord [.engineStep, .quit]).pc.toNat,
      (atLastWord [.engineStep, .quit]).readByte ((atLastWord [.engineStep, .quit]).pc.toNat + 1)] = .ok (.cls, []) ∧
    (atLastWord [.engineStep, .quit]).schedule = .engineStep :: [.quit] := ⟨rfl, rfl, rfl⟩
theorem witness_EngineHaltsAtBound_memory :
    (atPc 3584 4096 1).run = .running ∧ 4096 ≤ (atPc 3584 4096 1).pc.toNat := ⟨rfl, by decide⟩
theorem witness_EngineHaltsAtBound_rom :
    (atPc 6 0x207 1).run = .running ∧
    0x200 + (atPc 6 0x207 1).romSize + (atPc 6 0x207 1).config.haltMargin.val ≤ (atPc 6 0x207 1).pc.toNat :=
  ⟨rfl, by decide⟩
theorem witness_FetchAtLastByteFaults :
    (atPc 3584 4095 0).run = .running ∧ (atPc 3584 4095 0).pc.toNat = 4095 ∧
    4095 < 0x200 + (atPc 3584 4095 0).romSize + (atPc 3584 4095 0).config.haltMargin.val :=
  ⟨rfl, by decide, by decide⟩
theorem witness_IdleAndTerminalStatesStay :
    (start.setRun (.awaitingKey 5 none)).run = .awaitingKey 5 none ∧
    (∃ c, (start.setRun (.halted .pcExhausted)).run = .halted c) ∧
    ∃ c, (start.setRun (.fault .memOutOfRange)).run = .fault c := ⟨rfl, ⟨_, rfl⟩, ⟨_, rfl⟩⟩

/-! ### Witnesses: invariants -/

/-- Waiting at an FX0A at PC for the release of key 0xB, which is held; the release is due next. -/
def waitingState : State :=
  (((start.storeBytes 0x200 [0xF5, 0x0A]).setRun (.awaitingKey 5 (some 0xB))).setKeys 0x0800).setSchedule [.keyUp 0xB]

theorem witness_StepKeepsInvariant :
    waitingState.Inv ∧ step waitingState = .next (stateOf (step waitingState)) := by
  refine ⟨⟨by decide, rfl, by decide, by decide, ?_, ?_, ?_, ?_⟩, rfl⟩
  · intro a ha; exact absurd ha List.not_mem_nil
  · intro d hd
    exact nomatch (hd : (none : Option Nat) = some d)
  · intro x latch h
    cases h
    rfl
  · intro x k h
    cases h
    rfl

/-- A Running state with the deepest bounded stack, the highest return address and the highest PC of a jump. -/
def edgeState : State :=
  ((under { plain with stackDepth := some 1 }).setStack [4097]).setPc 0x10FE

theorem witness_StepKeepsInvariant_edge :
    edgeState.Inv ∧ step edgeState = .next (stateOf (step edgeState)) := by
  refine ⟨⟨rfl, rfl, by decide, by decide, ?_, ?_, ?_, ?_⟩, rfl⟩
  · intro a ha
    rw [List.mem_singleton.mp ha]
    decide
  · intro d hd
    cases hd
    decide
  · intro x latch h
    cases h
  · intro x k h
    cases h

theorem witness_StepKeepsRecordedCause :
    (start.withFetchWord 16 0x00EE).CauseRecorded ∧
    step (start.withFetchWord 16 0x00EE) = .next (stateOf (step (start.withFetchWord 16 0x00EE))) := by
  refine ⟨⟨?_, ?_, ?_, ?_, ?_, ?_⟩, rfl⟩ <;> intros <;> contradiction

/-- A launch of the largest ROM, every byte of it 0x12. -/
def fullLaunch : Launch := ⟨plain, ⟨defaultFont.toArray, rfl⟩, 0xFFFF, List.replicate 3584 0x12⟩
/-- A launch of a ROM one byte too long. -/
def longLaunch : Launch := ⟨plain, ⟨defaultFont.toArray, rfl⟩, 0, List.replicate 3585 0x12⟩

theorem witness_LaunchMemoryMap_full : fullLaunch.rom.length ≤ 3584 :=
  (List.length_replicate (n := 3584) (a := (0x12 : Byte))).le
theorem witness_LaunchMemoryMap_long : 3584 < longLaunch.rom.length :=
  Nat.lt_of_lt_of_eq (by decide) (List.length_replicate (n := 3585) (a := (0x12 : Byte))).symm
theorem witness_LaunchMeetsInvariant : ∃ t, launch fullLaunch = .next t := by
  unfold launch loadRom
  exact ⟨_, if_pos witness_LaunchMemoryMap_full⟩

theorem witness_StepKeepsConfigurationAndRomSize : step start = .next (stateOf (step start)) := rfl
theorem witness_InstructionsWriteOnlyTheirState :
    exec (.addReg 0xF 1) start = .next (stateOf (exec (.addReg 0xF 1) start)) := rfl
theorem witness_InstructionsWriteOnlyTheirState_untouched : mayWriteReg plain (.addReg 0xE 1) 0xD = false := by decide
theorem witness_EventsTouchOnlyTheirState : Transition.keyUp 0xF ≠ .engineStep := by decide
theorem witness_EqualReadsEqualMemories :
    Memory.wf [(0x04F, 1), (4095, 2)] = true ∧
    ∀ a < 4096, Memory.read [(0x04F, 1), (4095, 2)] a = Memory.read [(0x04F, 1), (4095, 2)] a :=
  ⟨by decide, fun _ _ => rfl⟩

/-! ### Witnesses: control flow -/

theorem witness_JumpWithOffset_v0 :
    (0 : RegIdx).val = if start.config.jumpVx then (0xFFF : BitVec 12).toNat / 256 else 0 := by decide
theorem witness_JumpWithOffset_vx :
    (0xF : RegIdx).val = if (under { plain with jumpVx := true }).config.jumpVx then (0xFFF : BitVec 12).toNat / 256
      else 0 := by decide

/-- A bounded stack with `n` of `STACK_DEPTH` = 2 entries. -/
def stackOf (n : Nat) : State := (under { plain with stackDepth := some 2 }).setStack (List.replicate n 0x202)

theorem witness_CallPushesReturnAddress_unbounded :
    ∀ d, start.config.stackDepth = some d → start.stack.length ≠ d := by
  intro d h
  cases h
theorem witness_CallPushesReturnAddress_bounded :
    ∀ d, (stackOf 1).config.stackDepth = some d → (stackOf 1).stack.length ≠ d := by
  intro d h
  cases h
  decide
theorem witness_ReturnPopsTop : (start.setStack [0x202, 4097]).stack = [0x202] ++ [4097] := rfl
theorem witness_ReturnPopsTop_last : (start.setStack [0x30A]).stack = [] ++ [0x30A] := rfl
theorem witness_StackFaults_empty : start.stack = [] := rfl
theorem witness_StackFaults_full :
    (stackOf 2).config.stackDepth = some 2 ∧ (stackOf 2).stack.length = 2 := ⟨rfl, rfl⟩
theorem witness_CallThenReturn :
    (∀ d, (stackOf 1).config.stackDepth = some d → (stackOf 1).stack.length ≠ d) ∧
    exec (.call 0x300) (stackOf 1) = .next (stateOf (exec (.call 0x300) (stackOf 1))) ∧
    (stateOf (exec (.call 0x300) (stackOf 1))).stack = (stateOf (exec (.call 0x300) (stackOf 1))).stack :=
  ⟨witness_CallPushesReturnAddress_bounded, rfl, rfl⟩

/-! ### Witnesses: skips and arithmetic -/

theorem witness_ValueSkips_holds : start.skip = false ∧ start.reg 0 = 0 ∧ start.reg 0 = start.reg 1 := ⟨rfl, rfl, rfl⟩
theorem witness_ValueSkips_fails :
    (start.setReg 0 0xFF).skip = false ∧ (start.setReg 0 0xFF).reg 0 ≠ 0 ∧
    (start.setReg 0 0xFF).reg 0 ≠ (start.setReg 0 0xFF).reg 1 := ⟨rfl, by decide, by decide⟩
theorem witness_KeySkips_top_key :
    ((start.setReg 0 15).setKeys 0x8000).skip = false ∧ (((start.setReg 0 15).setKeys 0x8000).reg 0).toNat ≤ 15 ∧
    ((start.setReg 0 15).setKeys 0x8000).keys.getLsbD 15 = true := ⟨rfl, by decide, by decide⟩
theorem witness_KeySkips_no_key :
    ((start.setReg 0 16).setKeys 0xFFFF).skip = false ∧ ¬(((start.setReg 0 16).setKeys 0xFFFF).reg 0).toNat ≤ 15 :=
  ⟨rfl, by decide⟩
theorem witness_LogicOperations :
    ∀ r : RegIdx, start.reg r = if start.config.vfReset = true ∧ r = 15 then 0 else start.reg r := by decide
theorem witness_LogicOperations_cleared :
    ∀ r : RegIdx, (0 : Byte) =
      if (under { plain with vfReset := true }).config.vfReset = true ∧ r = 15 then 0
      else (under { plain with vfReset := true }).reg r := by decide
theorem witness_ShiftsSetShiftedOutBit_vx :
    0xFF = ((start.setReg 15 0xFF).reg (if (start.setReg 15 0xFF).config.shiftVx then 15 else 1)).toNat := by decide
theorem witness_ShiftsSetShiftedOutBit_vy :
    0x80 = (((under { plain with shiftVx := false }).setReg 1 0x80).reg
      (if ((under { plain with shiftVx := false }).setReg 1 0x80).config.shiftVx then 15 else 1)).toNat := by decide

/-! ### Witnesses: index and memory -/

theorem witness_BcdStore :
    Memory.wf (start.setI 0xFFD).mem = true ∧ dataAddress (start.setI 0xFFD) + 3 ≤ 4096 := ⟨rfl, by decide⟩
theorem witness_StoreRegisters :
    Memory.wf (start.setI 0xFF0).mem = true ∧ dataAddress (start.setI 0xFF0) + (15 : RegIdx).val < 4096 :=
  ⟨rfl, by decide⟩
theorem witness_LoadRegisters : dataAddress (start.setI 0xFFF) + (0 : RegIdx).val < 4096 := by decide
theorem witness_RangeFaultsChangeNothing_store :
    0 < dataBytes (.ldMemVx 15) ∧ 4096 < dataAddress (start.setI 0xFF1) + dataBytes (.ldMemVx 15) := by decide
theorem witness_RangeFaultsChangeNothing_load :
    0 < dataBytes (.ldVxMem 0) ∧ 4096 < dataAddress (start.setI 0x1000) + dataBytes (.ldVxMem 0) := by decide
theorem witness_RangeFaultsChangeNothing_bcd :
    0 < dataBytes (.ldB 0) ∧ 4096 < dataAddress (start.setI 0xFFE) + dataBytes (.ldB 0) := by decide
theorem witness_RangeFaultsChangeNothing_draw :
    0 < dataBytes (.drw 0 0 1) ∧ 4096 < dataAddress (start.setI 0x1000) + dataBytes (.drw 0 0 1) := by decide

/-- About to store V0 to VF in the last sixteen bytes of memory. -/
def storing : State := (start.setReg 0 0xFF).setI 0xFF0

theorem witness_StoreThenLoadRestores :
    Memory.wf storing.mem = true ∧ dataAddress storing + (15 : RegIdx).val < 4096 ∧
    exec (.ldMemVx 15) storing = .next (stateOf (exec (.ldMemVx 15) storing)) ∧
    (stateOf (exec (.ldMemVx 15) storing)).i = storing.i := ⟨rfl, by decide, rfl, rfl⟩

/-- About to store V0 and V1 over the next instruction. -/
def selfModifying : State := ((start.setReg 0 0x12).setReg 1 0x02).setI 0x202

theorem witness_StoreIsSeenByNextFetch :
    Memory.wf selfModifying.mem = true ∧ 1 ≤ (1 : RegIdx).val ∧ dataAddress selfModifying + (1 : RegIdx).val < 4096 ∧
    dataAddress selfModifying = selfModifying.pc.toNat + 2 ∧
    exec (.ldMemVx 1) selfModifying = .next (stateOf (exec (.ldMemVx 1) selfModifying)) :=
  ⟨rfl, by decide, by decide, by decide, rfl⟩

/-! ### Witnesses: display -/

theorem witness_DrawTogglesSpritePixels_end_of_memory :
    (15 : Fin 16).val = 0 ∨ dataAddress (start.setI 0xFF1) + (15 : Fin 16).val ≤ 4096 := by decide
theorem witness_DrawTogglesSpritePixels_no_rows :
    (0 : Fin 16).val = 0 ∨ dataAddress (start.setI 0xFFFF) + (0 : Fin 16).val ≤ 4096 := by decide
/-- The last row of glyph F at the right edge: column 3 of the sprite is clipped, and wraps to column 1 when not. -/
theorem witness_DrawTogglesSpritePixels_toggles :
    toggles 0 1 1 ((start.setI 0x050).setReg 0 62) 1 0 :=
  ⟨0, by decide, 3, by decide, by decide, by simp only [landsOn]; decide⟩
theorem witness_DrawTogglesSpritePixels_does_not :
    ¬toggles 0 1 1 ((((under { plain with clip := true }).setI 0x050).setReg 0 62)) 1 0 := by
  rintro ⟨row, _, col, _, _, h, _⟩
  exact absurd h (by simp [State.reg, State.setReg, State.setI]; omega)
theorem witness_DrawEmitsOneEventPerPixel :
    (5 : Fin 16).val = 0 ∨ dataAddress (start.setI 0xFFB) + (5 : Fin 16).val ≤ 4096 := by decide

/-- About to draw glyph 0 across the corner of the screen. -/
def drawing : State := ((start.setI 0x050).setReg 0 62).setReg 1 30
/-- The screen after it, with the registers as they were. -/
def drawn : State := drawing.setFb (stateOf (exec (.drw 0 1 5) drawing)).fb

theorem witness_DrawTwiceRestoresScreen :
    ((5 : Fin 16).val = 0 ∨ dataAddress drawing + (5 : Fin 16).val ≤ 4096) ∧
    exec (.drw 0 1 5) drawing = .next (stateOf (exec (.drw 0 1 5) drawing)) ∧
    drawn.fb = (stateOf (exec (.drw 0 1 5) drawing)).fb ∧ drawn.reg 0 = drawing.reg 0 ∧ drawn.reg 1 = drawing.reg 1 ∧
    drawn.i = drawing.i ∧ drawn.config = drawing.config ∧
    ∀ k < (5 : Fin 16).val, drawn.readByte (dataAddress drawing + k) = drawing.readByte (dataAddress drawing + k) :=
  ⟨by decide, rfl, rfl, rfl, rfl, rfl, rfl, fun _ _ => rfl⟩

/-! ### Witnesses: timers and keypad -/

theorem witness_TimerTickCountsDown_running :
    start.run = .running ∨ ∃ x latch, start.run = .awaitingKey x latch := .inl rfl
theorem witness_TimerTickCountsDown_waiting :
    waitingState.run = .running ∨ ∃ x latch, waitingState.run = .awaitingKey x latch := .inr ⟨5, some 0xB, rfl⟩
theorem witness_TimersRunDuringKeyWait : waitingState.run = .awaitingKey 5 (some 0xB) := rfl
theorem witness_KeyDownEffect_repeat : waitingState.keys.getLsbD (0xB : KeyCode).val = true := by decide
theorem witness_KeyDownEffect_latches :
    (start.setRun (.awaitingKey 5 none)).keys.getLsbD (0xF : KeyCode).val = false ∧
    (start.setRun (.awaitingKey 5 none)).run = .awaitingKey 5 none := ⟨by decide, rfl⟩
theorem witness_KeyDownEffect_no_latch :
    start.keys.getLsbD (0 : KeyCode).val = false ∧ ∀ x, start.run ≠ .awaitingKey x none :=
  ⟨by decide, fun _ h => by cases h⟩
theorem witness_KeyUpEffect_stray : start.keys.getLsbD (0xF : KeyCode).val = false := by decide
theorem witness_KeyUpEffect_resolves :
    waitingState.keys.getLsbD (0xB : KeyCode).val = true ∧ waitingState.run = .awaitingKey 5 (some 0xB) :=
  ⟨by decide, rfl⟩
theorem witness_KeyUpEffect_other_key :
    (waitingState.setKeys 0x0801).keys.getLsbD (0 : KeyCode).val = true ∧
    ∀ x, (waitingState.setKeys 0x0801).run ≠ .awaitingKey x (some 0) :=
  ⟨by decide, fun _ h => by cases h⟩

/-- About to run an FX0A, then to see key 0xF pressed and released. -/
def keyRun : State := (start.withFetchWord 16 0xF30A).setSchedule [.engineStep, .keyDown 0xF, .keyUp 0xF]

theorem witness_KeyWaitResolves :
    keyRun.run = .running ∧ keyRun.pc.toNat + 1 < 4096 ∧
    keyRun.pc.toNat < 0x200 + keyRun.romSize + keyRun.config.haltMargin.val ∧
    fetchWord keyRun = some (encode (.ldVxK 3)) ∧ keyRun.keys.getLsbD (0xF : KeyCode).val = false ∧
    keyRun.schedule = [.engineStep, .keyDown 0xF, .keyUp 0xF] :=
  ⟨rfl, by decide, by decide, rfl, by decide, rfl⟩
theorem witness_KeyWaitEndsOnlyByReleaseOrQuit :
    waitingState.run = .awaitingKey 5 (some 0xB) ∧
    transition (.keyUp 0xB) waitingState = .next (stateOf (transition (.keyUp 0xB) waitingState)) ∧
    transition .quit waitingState = .next (stateOf (transition .quit waitingState)) ∧
    transition .timerTick waitingState = .next (stateOf (transition .timerTick waitingState)) := ⟨rfl, rfl, rfl, rfl⟩
theorem witness_QuitHaltsRun :
    waitingState.run = .running ∨ ∃ x latch, waitingState.run = .awaitingKey x latch := .inr ⟨5, some 0xB, rfl⟩

/-- Host keys 100 to 115 for the codes 0x0 to 0xF. -/
def sampleMap : HostKeyMap := Vector.ofFn fun k : Fin 16 => 100 + k.val

theorem witness_HostKeyMapIsBijection : HostKeyMap.wf sampleMap = true := by decide
theorem witness_HostKeyMapIsBijection_no_key : ∀ k : KeyCode, sampleMap[k.val] ≠ 116 := by decide

end Sys2Proof.Tests
end

/-! # Moves: what every transition of an agent leaves alone

Each agent's transition answers a next state, keeps what the launch fixed (R7, R36), and neither reads nor writes the
schedule (log 7). The predicate `IsMove` says so once; it is closed under branching and under sequencing, so it is
proved of the shared operations, then of every instruction, and then of the transitions. -/

namespace Sys2Proof.Machine

/-- From `s` the operation `f` answers `t`, with the configuration and ROM_SIZE of `s`, and with any other schedule in
`s` it answers `t` with that schedule. -/
structure Moves (f : State → Answer) (s t : State) : Prop where
  next     : f s = .next t
  config   : t.config = s.config
  romSize  : t.romSize = s.romSize
  schedule : ∀ ts, f (s.setSchedule ts) = .next (t.setSchedule ts)

/-- An operation that moves from every state. -/
def IsMove (f : State → Answer) : Prop := ∀ s, ∃ t, Moves f s t

/-- An update with no branch is a move when the three facts hold by computation. -/
theorem isMove_update {u : State → State} (hconfig : ∀ s, (u s).config = s.config := by exact fun _ => rfl)
    (hromSize : ∀ s, (u s).romSize = s.romSize := by exact fun _ => rfl)
    (hschedule : ∀ s ts, u (s.setSchedule ts) = (u s).setSchedule ts := by exact fun _ _ => rfl) :
    IsMove fun s => .next (u s) :=
  fun s => ⟨u s, rfl, hconfig s, hromSize s, fun ts => congrArg Host.Outcome.next (hschedule s ts)⟩

/-! ### Branching and sequencing -/

/-- An operation moves from a state where it agrees, under every schedule, with a move. -/
theorem IsMove.exists_moves_of_eq {f g : State → Answer} {s : State} (hg : IsMove g)
    (h : ∀ ts, f (s.setSchedule ts) = g (s.setSchedule ts)) : ∃ t, Moves f s t := by
  obtain ⟨t, ht⟩ := hg s
  exact ⟨t, (h s.schedule).trans ht.next, ht.config, ht.romSize, fun ts => (h ts).trans (ht.schedule ts)⟩

/-- A branch on a condition that does not depend on the schedule. -/
theorem IsMove.ite {c : State → Prop} [DecidablePred c] {f g : State → Answer}
    (hc : ∀ s ts, c (s.setSchedule ts) ↔ c s) (hf : IsMove f) (hg : IsMove g) :
    IsMove fun s => if c s then f s else g s := by
  intro s
  by_cases h : c s
  · exact hf.exists_moves_of_eq fun ts => if_pos ((hc s ts).mpr h)
  · exact hg.exists_moves_of_eq fun ts => if_neg (mt (hc s ts).mp h)

/-- A state update that is a move, and then a move. -/
theorem IsMove.comp {u : State → State} {f : State → Answer} (hf : IsMove f) (hu : IsMove fun s => .next (u s)) :
    IsMove fun s => f (u s) := by
  intro s
  obtain ⟨_, hu⟩ := hu s
  obtain rfl := Host.Outcome.next.inj hu.next
  obtain ⟨t, ht⟩ := hf (u s)
  refine ⟨t, ht.next, ht.config.trans hu.config, ht.romSize.trans hu.romSize, fun ts => ?_⟩
  have hcomm : u (s.setSchedule ts) = (u s).setSchedule ts := Host.Outcome.next.inj (hu.schedule ts)
  rw [hcomm, ht.schedule ts]

/-! ### The shared operations -/

theorem isMove_next : IsMove .next := isMove_update

theorem isMove_setRun (r : RunState) : IsMove fun s => .next (s.setRun r) := isMove_update

theorem isMove_raiseFault (c : Fault) : IsMove (raiseFault c) := isMove_setRun (.fault c)

theorem isMove_advance : IsMove fun s => .next (advance s) := isMove_update

/-- The range check of the memory instructions around a move. -/
theorem isMove_withRange (n : Nat) {u : State → State} (hu : IsMove fun s => .next (u s)) :
    IsMove fun s => withRange n s (u s) :=
  .ite (fun _ _ => Iff.rfl) hu (isMove_raiseFault .memOutOfRange)

theorem isMove_skipWhen (c : Bool) : IsMove fun s => .next (skipWhen c s) := by
  cases c <;> exact isMove_update

theorem isMove_skipAdvance : IsMove fun s => .next (skipAdvance s) := by
  intro s
  cases h : s.skip
  · exact isMove_advance.exists_moves_of_eq fun ts => by simp [skipAdvance, h]
  · have htwo : IsMove fun s => .next ((advance (advance s)).setSkip false) := isMove_update
    exact htwo.exists_moves_of_eq fun ts => by simp [skipAdvance, h]

/-- A skip on a condition that does not depend on the schedule. -/
theorem isMove_skipOn {c : State → Bool} (hc : ∀ s ts, c (s.setSchedule ts) = c s) :
    IsMove fun s => skipOn (c s) s := fun s =>
  (isMove_skipAdvance.comp (isMove_skipWhen (c s))).exists_moves_of_eq fun ts => by rw [hc]; rfl

theorem isMove_clearFlagForLogic : IsMove fun s => .next (clearFlagForLogic s) := by
  intro s
  cases h : s.config.vfReset
  · exact isMove_next.exists_moves_of_eq fun ts => by simp [clearFlagForLogic, h]
  · have hclear : IsMove fun s => .next (s.setReg vf 0) := isMove_update
    exact hclear.exists_moves_of_eq fun ts => by simp [clearFlagForLogic, h]

theorem isMove_logicOp (f : Byte → Byte → Byte) (x y : RegIdx) : IsMove (logicOp f x y) := by
  have hwrite : IsMove fun s => writeAndAdvance x (f (s.reg x) (s.reg y)) s := isMove_update
  exact hwrite.comp isMove_clearFlagForLogic

/-! ### The instructions -/

theorem isMove_execRet : IsMove execRet := by
  intro s
  cases h : s.stack.getLast? with
  | none => exact (isMove_raiseFault .stackUnderflow).exists_moves_of_eq fun ts => by simp [execRet, h]
  | some top =>
    have hpop : IsMove fun s => .next ((s.setStack s.stack.dropLast).setPc top) := isMove_update
    exact hpop.exists_moves_of_eq fun ts => by simp [execRet, h]

theorem isMove_execCall (nnn : BitVec 12) : IsMove (execCall nnn) := by
  have hcall : IsMove fun s => .next ((push (s.pc + 2) s).setPc (addressOf nnn)) := isMove_update
  exact .ite (fun _ _ => Iff.rfl) (isMove_raiseFault .stackOverflow) hcall

/-- Every instruction is a move; those with no case of their own are one update with no branch. -/
theorem isMove_exec (i : Instr) : IsMove (exec i) := by
  cases i with
  | ret => exact isMove_execRet
  | call nnn => exact isMove_execCall nnn
  | seImm | sneImm | seReg | sneReg | skp | sknp => exact isMove_skipOn fun _ _ => rfl
  | orReg x y | andReg x y | xorReg x y => exact isMove_logicOp _ x y
  | drw | ldB | ldMemVx | ldVxMem => exact isMove_withRange _ isMove_update
  | _ => exact isMove_update

/-! ### The transitions -/

theorem isMove_fetchAndExec : IsMove fetchAndExec := by
  intro s
  have hfetch (ts : List Transition) : fetchWord (s.setSchedule ts) = fetchWord s := fetchWord_congr _ _ rfl rfl
  cases h : fetchWord s with
  | none => exact (isMove_raiseFault .fetchOutOfRange).exists_moves_of_eq fun ts => by simp [fetchAndExec, hfetch, h]
  | some w => exact (isMove_exec (decodeWord w)).exists_moves_of_eq fun ts => by simp [fetchAndExec, hfetch, h]

theorem isMove_engineStep : IsMove engineStep := by
  intro s
  cases h : s.run with
  | running =>
    have hrun : IsMove fun s => if haltCheck s then .next (halt .pcExhausted s) else fetchAndExec s :=
      .ite (fun _ _ => Iff.rfl) (isMove_setRun _) isMove_fetchAndExec
    exact hrun.exists_moves_of_eq fun ts => by simp [engineStep, h]
  | awaitingKey | halted | fault => exact isMove_next.exists_moves_of_eq fun ts => by simp [engineStep, h]

/-- An event that acts only while RUN is Running or AwaitingKey (R229). -/
theorem isMove_whenActive {u : State → State} (hu : IsMove fun s => .next (u s)) :
    IsMove fun s => .next (if s.active then u s else s) := by
  simp only [apply_ite Host.Outcome.next]
  exact .ite (fun _ _ => Iff.rfl) hu isMove_next

theorem isMove_setSoundLevel : IsMove fun s => .next (setSoundLevel s) := by
  simp only [setSoundLevel, apply_ite Host.Outcome.next]
  exact .ite (fun _ _ => Iff.rfl) isMove_update isMove_update

theorem isMove_timerTick : IsMove fun s => .next (timerTick s) :=
  isMove_whenActive (isMove_setSoundLevel.comp isMove_update)

theorem isMove_latchKey (k : KeyCode) : IsMove fun s => .next (latchKey k s) := by
  intro s
  match h : s.run with
  | .awaitingKey x none =>
    exact (isMove_setRun (.awaitingKey x (some k))).exists_moves_of_eq fun ts => by simp [latchKey, h]
  | .awaitingKey _ (some _) | .running | .halted _ | .fault _ =>
    exact isMove_next.exists_moves_of_eq fun ts => by simp [latchKey, h]

theorem isMove_resolveWait (k : KeyCode) : IsMove fun s => .next (resolveWait k s) := by
  intro s
  match h : s.run with
  | .awaitingKey x (some k') =>
    have hresolve : IsMove fun s => .next ((advance (s.setReg x (BitVec.ofNat 8 k.val))).setRun .running) :=
      isMove_update
    by_cases hk : k' = k
    · exact hresolve.exists_moves_of_eq fun ts => by simp [resolveWait, h, hk]
    · exact isMove_next.exists_moves_of_eq fun ts => by simp [resolveWait, h, hk]
  | .awaitingKey _ none | .running | .halted _ | .fault _ =>
    exact isMove_next.exists_moves_of_eq fun ts => by simp [resolveWait, h]

theorem isMove_keyDown (k : KeyCode) : IsMove fun s => .next (keyDown k s) := by
  refine isMove_whenActive ?_
  simp only [apply_ite Host.Outcome.next]
  exact .ite (fun _ _ => Iff.rfl) isMove_next ((isMove_latchKey k).comp isMove_update)

theorem isMove_keyUp (k : KeyCode) : IsMove fun s => .next (keyUp k s) := by
  refine isMove_whenActive ?_
  simp only [apply_ite Host.Outcome.next]
  exact .ite (fun _ _ => Iff.rfl) ((isMove_resolveWait k).comp isMove_update) isMove_next

theorem isMove_quit : IsMove fun s => .next (quit s) := isMove_whenActive (isMove_setRun (.halted .quit))

theorem isMove_transition (tr : Transition) : IsMove (transition tr) := by
  cases tr with
  | engineStep => exact isMove_engineStep
  | timerTick => exact isMove_timerTick
  | keyDown k => exact isMove_keyDown k
  | keyUp k => exact isMove_keyUp k
  | quit => exact isMove_quit

/-- Every step answers a next state with the configuration and ROM_SIZE as they were. -/
theorem exists_step_eq_next (s : State) : ∃ t, step s = .next t ∧ t.config = s.config ∧ t.romSize = s.romSize := by
  rcases step_cases s with ⟨-, hstep⟩ | ⟨tr, rest, -, hstep⟩
  · obtain ⟨t, ht⟩ := isMove_engineStep s
    exact ⟨t, hstep.trans ht.next, ht.config, ht.romSize⟩
  · obtain ⟨t, ht⟩ := isMove_transition tr (s.setSchedule rest)
    exact ⟨t, hstep.trans ht.next, ht.config, ht.romSize⟩

/-- Settles O17: every step is a transition of an agent, and those are moves. -/
theorem stepKeepsConfigurationAndRomSize : Obligations.StepKeepsConfigurationAndRomSize := by
  intro s t hstep
  obtain ⟨t', hnext, hkept⟩ := exists_step_eq_next s
  obtain rfl : t = t' := Host.Outcome.next.inj (hstep.symm.trans hnext)
  exact hkept

/-- Settles O12, by induction on the list: the first transition answers the same state under the rest of the schedule
and under the empty one. -/
theorem runFollowsSchedule : Obligations.RunFollowsSchedule := by
  intro ts
  induction ts with
  | nil => exact fun _ => rfl
  | cons tr ts ih =>
    intro s
    obtain ⟨t, ht⟩ := isMove_transition tr s
    have hstep : core.step (s.setSchedule (tr :: ts)) = .next (t.setSchedule ts) := ht.schedule ts
    have hrun : Host.Core.run core (ts.length + 1) (s.setSchedule (tr :: ts)) =
        Host.Core.run core ts.length (t.setSchedule ts) := by simp only [Host.Core.run, hstep]
    have hlist : runTransitions (tr :: ts) (s.setSchedule []) = runTransitions ts (t.setSchedule []) := by
      simp only [runTransitions, ht.schedule []]
    exact hrun.trans ((ih t).trans hlist.symm)

end Sys2Proof.Machine

/-! # Decoding, undone by the encoder

A word is the join of its fields (R71), so the encoder gives back every word it is decoded from (R72, R75, R76). The
key-wait clause of R41 needs it: the word at PC that decodes to FX0A is the word of that FX0A. -/

namespace Sys2Proof

/-! ### A word from its fields, one lemma for each format -/

/-- Two adjacent fields, joined. -/
theorem extractLsb'_append_extractLsb' {n : Nat} (w : BitVec n) (start hi lo : Nat) :
    w.extractLsb' (start + lo) hi ++ w.extractLsb' start lo = w.extractLsb' start (hi + lo) := by
  ext k hk
  simp only [BitVec.getElem_append, BitVec.getElem_extractLsb']
  split
  · rfl
  · congr 1
    omega

theorem encodeA_fields (w : Word) : encodeA (opHi w) (fieldNNN w) = w :=
  (extractLsb'_append_extractLsb' w 0 4 12).trans BitVec.extractLsb'_eq_self

theorem encodeI_fields (w : Word) : encodeI (opHi w) (fieldX w) (fieldNN w) = w := by
  have hlow : (nibble (fieldX w) ++ fieldNN w : BitVec (4 + 8)) = fieldNNN w :=
    extractLsb'_append_extractLsb' w 0 4 8
  exact (congrArg (encodeA (opHi w)) hlow).trans (encodeA_fields w)

theorem encodeR_fields (w : Word) : encodeR (opHi w) (fieldX w) (fieldY w) (fieldN w) = w := by
  have hlow : (nibble (fieldY w) ++ fieldN w : BitVec (4 + 4)) = fieldNN w :=
    extractLsb'_append_extractLsb' w 0 4 4
  exact (congrArg (encodeI (opHi w) (fieldX w)) hlow).trans (encodeI_fields w)

variable {w : Word} {op n : BitVec 4} {nn : Byte}

theorem encodeA_of_opHi (hop : (opHi w).toNat = op.toNat) : encodeA op (fieldNNN w) = w := by
  rw [← BitVec.eq_of_toNat_eq hop, encodeA_fields]

theorem encodeI_of_opHi (hop : (opHi w).toNat = op.toNat) : encodeI op (fieldX w) (fieldNN w) = w := by
  rw [← BitVec.eq_of_toNat_eq hop, encodeI_fields]

theorem encodeR_of_opHi_of_fieldN (hop : (opHi w).toNat = op.toNat) (hn : (fieldN w).toNat = n.toNat) :
    encodeR op (fieldX w) (fieldY w) n = w := by
  rw [← BitVec.eq_of_toNat_eq hop, ← BitVec.eq_of_toNat_eq hn, encodeR_fields]

theorem encodeK_of_opHi_of_fieldNN (hop : (opHi w).toNat = op.toNat) (hnn : (fieldNN w).toNat = nn.toNat) :
    encodeK op (fieldX w) nn = w := by
  rw [← BitVec.eq_of_toNat_eq hop, ← BitVec.eq_of_toNat_eq hnn]
  exact encodeI_fields w

/-! ### The groups with a discriminator (R74, R77, R78) -/

theorem encode_decodeGroup0 (hop : (opHi w).toNat = 0x0) : encode (decodeGroup0 w) = w := by
  have hw (nnn : BitVec 12) (h : (fieldNNN w).toNat = nnn.toNat) : encodeA 0x0#4 nnn = w := by
    rw [← BitVec.eq_of_toNat_eq h, encodeA_of_opHi hop]
  unfold decodeGroup0
  split
  · exact hw 0x0E0#12 ‹_›
  · exact hw 0x0EE#12 ‹_›
  · exact encodeA_of_opHi hop

theorem encode_decodeGroup5 (hop : (opHi w).toNat = 0x5) : encode (decodeGroup5 w) = w := by
  unfold decodeGroup5
  split
  · exact encodeR_of_opHi_of_fieldN hop ‹_›
  · rfl

theorem encode_decodeGroup8 (hop : (opHi w).toNat = 0x8) : encode (decodeGroup8 w) = w := by
  unfold decodeGroup8
  split
  case h_10 => rfl
  all_goals exact encodeR_of_opHi_of_fieldN hop ‹_›

theorem encode_decodeGroup9 (hop : (opHi w).toNat = 0x9) : encode (decodeGroup9 w) = w := by
  unfold decodeGroup9
  split
  · exact encodeR_of_opHi_of_fieldN hop ‹_›
  · rfl

theorem encode_decodeGroupE (hop : (opHi w).toNat = 0xE) : encode (decodeGroupE w) = w := by
  unfold decodeGroupE
  split
  case h_3 => rfl
  all_goals exact encodeK_of_opHi_of_fieldNN hop ‹_›

theorem encode_decodeGroupF (hop : (opHi w).toNat = 0xF) : encode (decodeGroupF w) = w := by
  unfold decodeGroupF
  split
  case h_10 => rfl
  all_goals exact encodeK_of_opHi_of_fieldNN hop ‹_›

/-- Every word is the word of the instruction it decodes to (R75, R76). -/
theorem encode_decodeWord (w : Word) : encode (decodeWord w) = w := by
  unfold decodeWord
  split
  · exact encode_decodeGroup0 ‹_›
  · exact encodeA_of_opHi ‹_›
  · exact encodeA_of_opHi ‹_›
  · exact encodeI_of_opHi ‹_›
  · exact encodeI_of_opHi ‹_›
  · exact encode_decodeGroup5 ‹_›
  · exact encodeI_of_opHi ‹_›
  · exact encodeI_of_opHi ‹_›
  · exact encode_decodeGroup8 ‹_›
  · exact encode_decodeGroup9 ‹_›
  · exact encodeA_of_opHi ‹_›
  · exact encodeA_of_opHi ‹_›
  · exact encodeI_of_opHi ‹_›
  · exact encodeR_of_opHi_of_fieldN ‹_› rfl
  · exact encode_decodeGroupE ‹_›
  · have hlt := (opHi w).isLt
    have hop : (opHi w).toNat = 0xF := by grind
    exact encode_decodeGroupF hop

end Sys2Proof

/-! # The invariant of R41 is kept

`State.Inv` reads MEM, SKIP, ROM_SIZE, PC, STACK, the stack bound, RUN and KEYS. An update that leaves these alone keeps
it; the others have one lemma each. An instruction runs only in a state that is `Executing`, where no wait is pending
and PC is low enough for every PC class of R102. -/

namespace Sys2Proof.Machine

/-! ### Updates of the fields the invariant reads -/

/-- The invariant reads no field but these. -/
theorem State.Inv.congr {s t : State} (h : s.Inv) (hmem : t.mem = s.mem := by rfl) (hskip : t.skip = s.skip := by rfl)
    (hrom : t.romSize = s.romSize := by rfl) (hpc : t.pc = s.pc := by rfl) (hstack : t.stack = s.stack := by rfl)
    (hconfig : t.config = s.config := by rfl) (hrun : t.run = s.run := by rfl) (hkeys : t.keys = s.keys := by rfl) :
    t.Inv where
  memory := hmem ▸ h.memory
  skip := hskip ▸ h.skip
  rom := hrom ▸ h.rom
  pc := hpc ▸ h.pc
  stack := hstack ▸ h.stack
  depth := hstack ▸ hconfig ▸ h.depth
  waiting := by rw [hrun, fetchWord_congr s t hpc hmem]; exact h.waiting
  latched := hrun ▸ hkeys ▸ h.latched

/-- Where no key is awaited, the invariant is its clauses on MEM, SKIP, ROM_SIZE, PC and STACK. -/
theorem inv_of_not_waiting {s : State} (hrun : ∀ x latch, s.run ≠ .awaitingKey x latch)
    (memory : Memory.wf s.mem = true) (skip : s.skip = false) (rom : s.romSize ≤ romRoom) (pc : s.pc.toNat ≤ 0x10FE)
    (stack : ∀ a ∈ s.stack, a.toNat ≤ 4097) (depth : ∀ d, s.config.stackDepth = some d → s.stack.length ≤ d) :
    s.Inv :=
  { memory, skip, rom, pc, stack, depth
    waiting := fun x latch hwait => absurd hwait (hrun x latch)
    latched := fun x k hwait => absurd hwait (hrun x (some k)) }

/-- RUN takes a value that is no pending wait. -/
theorem State.Inv.setRun {s : State} (h : s.Inv) {r : RunState} (hr : ∀ x latch, r ≠ .awaitingKey x latch) :
    (s.setRun r).Inv :=
  inv_of_not_waiting hr h.memory h.skip h.rom h.pc h.stack h.depth

theorem State.Inv.raiseFault {s t : State} (h : s.Inv) {c : Fault} (ht : raiseFault c s = .next t) : t.Inv :=
  Host.Outcome.next.inj ht ▸ h.setRun nofun

/-- A wait for register `x` begins, or latches a key that is held, at its own FX0A. -/
theorem State.Inv.setRun_awaitingKey {s : State} (h : s.Inv) {x : RegIdx} {latch : Option KeyCode}
    (hfetch : fetchWord s = some (encode (.ldVxK x))) (hheld : ∀ k ∈ latch, s.keys.getLsbD k.val = true) :
    (s.setRun (.awaitingKey x latch)).Inv :=
  { memory := h.memory, skip := h.skip, rom := h.rom, pc := h.pc, stack := h.stack, depth := h.depth
    waiting := by rintro _ _ ⟨⟩; exact hfetch
    latched := by rintro _ k ⟨⟩; exact hheld k rfl }

/-- KEYS changes, and every latched key is held in the new value. -/
theorem State.Inv.setKeys {s : State} (h : s.Inv) {ks : BitVec 16}
    (hheld : ∀ x k, s.run = .awaitingKey x (some k) → ks.getLsbD k.val = true) : (s.setKeys ks).Inv :=
  { memory := h.memory, skip := h.skip, rom := h.rom, pc := h.pc, stack := h.stack, depth := h.depth
    waiting := h.waiting, latched := hheld }

/-! ### A state in which an instruction runs -/

/-- What holds of a state when the execute phase begins: PC has a second byte, and no key is awaited. -/
structure Executing (s : State) : Prop where
  inv     : s.Inv
  running : s.run = .running
  pc      : s.pc.toNat ≤ 4094

theorem pc_le_of_fetchWord {s : State} {w : Word} (h : fetchWord s = some w) : s.pc.toNat ≤ 4094 := by
  have hnone : ¬ memSize ≤ s.pc.toNat + 1 := by simp [← fetchWord_eq_none_iff, h]
  simp only [memSize] at hnone
  omega

theorem ne_awaitingKey_of_running {s : State} (h : s.run = .running) (x : RegIdx) (latch : Option KeyCode) :
    s.run ≠ .awaitingKey x latch := by
  rw [h]
  nofun

/-- Fields the invariant does not read may change, and so may KEYS. -/
theorem Executing.congr {s t : State} (h : Executing s) (hmem : t.mem = s.mem := by rfl)
    (hskip : t.skip = s.skip := by rfl) (hrom : t.romSize = s.romSize := by rfl) (hpc : t.pc = s.pc := by rfl)
    (hstack : t.stack = s.stack := by rfl) (hconfig : t.config = s.config := by rfl) (hrun : t.run = s.run := by rfl) :
    Executing t where
  inv := inv_of_not_waiting (ne_awaitingKey_of_running (hrun.trans h.running)) (hmem ▸ h.inv.memory)
    (hskip ▸ h.inv.skip) (hrom ▸ h.inv.rom) (hpc ▸ h.inv.pc) (hstack ▸ h.inv.stack)
    (hstack ▸ hconfig ▸ h.inv.depth)
  running := hrun.trans h.running
  pc := hpc ▸ h.pc

/-- PC moves to a value within the bound of R25. -/
theorem Executing.setPc {s : State} (h : Executing s) {a : Word} (ha : a.toNat ≤ 0x10FE) : (s.setPc a).Inv :=
  inv_of_not_waiting (ne_awaitingKey_of_running h.running) h.inv.memory h.inv.skip h.inv.rom ha h.inv.stack h.inv.depth

/-- STACK changes within the bounds of R25 and R26. -/
theorem Executing.setStack {s : State} (h : Executing s) {st : List Word} (hst : ∀ a ∈ st, a.toNat ≤ 4097)
    (hdepth : ∀ d, s.config.stackDepth = some d → st.length ≤ d) : Executing (s.setStack st) where
  inv := inv_of_not_waiting (ne_awaitingKey_of_running h.running) h.inv.memory h.inv.skip h.inv.rom h.inv.pc hst hdepth
  running := h.running
  pc := h.pc

/-- Bytes are stored inside memory. -/
theorem Executing.storeBytes {s : State} (h : Executing s) {a : Nat} {bs : List Byte}
    (ha : a + bs.length ≤ memSize) : Executing (s.storeBytes a bs) where
  inv := inv_of_not_waiting (ne_awaitingKey_of_running h.running) (wf_writeList h.inv.memory ha) h.inv.skip h.inv.rom
    h.inv.pc h.inv.stack h.inv.depth
  running := h.running
  pc := h.pc

theorem Executing.advance {s : State} (h : Executing s) : (advance s).Inv := by
  have hpc := h.pc
  exact h.setPc (by bv_omega)

/-! ### The shared shapes of the instructions -/

/-- An instruction that ends with the PC class `advance`. -/
theorem Executing.inv_of_advance {s t : State} (h : Executing s)
    (ht : (.next (Machine.advance s) : Answer) = .next t) : t.Inv :=
  Host.Outcome.next.inj ht ▸ h.advance

/-- A jump within the bound of R25. -/
theorem Executing.inv_of_setPc {s t : State} (h : Executing s) {a : Word} (ha : a.toNat ≤ 0x10FE)
    (ht : (.next (s.setPc a) : Answer) = .next t) : t.Inv :=
  Host.Outcome.next.inj ht ▸ h.setPc ha

theorem Executing.inv_of_skipOn {s t : State} (h : Executing s) {c : Bool} (ht : skipOn c s = .next t) : t.Inv := by
  rw [skipOn_eq s c h.inv.skip] at ht
  refine h.inv_of_setPc ?_ ht
  have hpc := h.pc
  split <;> bv_omega

/-- The instructions whose range from I is checked (R56). -/
theorem Executing.inv_of_withRange {s t u : State} (h : Executing s) {n : Nat}
    (hu : inMemory (dataAddress s) n = true → u.Inv) (ht : withRange n s u = .next t) : t.Inv := by
  rcases withRange_cases s u n with ⟨hin, hnext⟩ | ⟨-, hfault⟩
  · exact Host.Outcome.next.inj (hnext.symm.trans ht) ▸ hu hin
  · exact h.inv.raiseFault (hfault.symm.trans ht)

theorem Executing.clearFlagForLogic {s : State} (h : Executing s) : Executing (clearFlagForLogic s) := by
  unfold Machine.clearFlagForLogic
  split
  · exact h.congr
  · exact h

theorem Executing.inv_of_logicOp {s t : State} (h : Executing s) {f : Byte → Byte → Byte} {x y : RegIdx}
    (ht : logicOp f x y s = .next t) : t.Inv :=
  h.clearFlagForLogic.congr.inv_of_advance ht

theorem Executing.finishDraw {s : State} (h : Executing s) (d : Draw) : Executing (finishDraw d s) := h.congr

theorem Executing.load {s : State} (h : Executing s) (v : Vector Byte 16) (i : Word) :
    Executing ((s.setRegs v).setI i) := h.congr

/-- A store of `n > 0` bytes from I on whose range is in memory (R57). -/
theorem Executing.storeBytes_dataAddress {s : State} (h : Executing s) {bs : List Byte} {n : Nat} (hn : bs.length = n)
    (hpos : 0 < n) (hin : inMemory (dataAddress s) n = true) :
    Executing (s.storeBytes (dataAddress s) bs) := by
  refine h.storeBytes ?_
  have := (inMemory_iff _ _).mp hin
  omega

/-! ### Control flow (R25, R26) -/

theorem toNat_addressOf (nnn : BitVec 12) : (addressOf nnn).toNat = nnn.toNat :=
  BitVec.toNat_setWidth_of_le (by decide)

theorem toNat_addressOf_le (nnn : BitVec 12) : (addressOf nnn).toNat ≤ 0x10FE := by
  have := nnn.isLt
  rw [toNat_addressOf]
  omega

theorem toNat_jumpTarget_le (s : State) (nnn : BitVec 12) : (jumpTarget s nnn).toNat ≤ 0x10FE := by
  have hb := (s.reg (jumpRegister s.config nnn)).isLt
  have hn := nnn.isLt
  rw [jumpTarget, BitVec.toNat_add, toNat_addressOf, BitVec.toNat_setWidth_of_le (by decide)]
  omega

/-- What 00EE can do (R108). -/
theorem execRet_cases (s : State) :
    (s.stack = [] ∧ execRet s = raiseFault .stackUnderflow s) ∨
    (∃ top, s.stack.getLast? = some top ∧ execRet s = .next ((s.setStack s.stack.dropLast).setPc top)) := by
  cases hs : s.stack.getLast? with
  | none => exact .inl ⟨List.getLast?_eq_none_iff.mp hs, by simp [execRet, hs]⟩
  | some top => exact .inr ⟨top, rfl, by simp [execRet, hs]⟩

/-- What 2NNN can do (R106). -/
theorem execCall_cases (nnn : BitVec 12) (s : State) :
    (stackFull s = true ∧ execCall nnn s = raiseFault .stackOverflow s) ∨
    (stackFull s = false ∧ execCall nnn s = .next ((push (s.pc + 2) s).setPc (addressOf nnn))) := by
  cases hfull : stackFull s <;> simp [execCall, hfull]

/-- The return address is on the stack, so it is at most 4097 (R25). -/
theorem Executing.inv_of_execRet {s t : State} (h : Executing s) (ht : execRet s = .next t) : t.Inv := by
  rcases execRet_cases s with ⟨-, he⟩ | ⟨top, htop, he⟩
  · exact h.inv.raiseFault (he.symm.trans ht)
  · have hle : top.toNat ≤ 4097 := h.inv.stack top (List.mem_of_getLast? htop)
    have hpopped : Executing (s.setStack s.stack.dropLast) := by
      refine h.setStack (fun a ha => h.inv.stack a (List.dropLast_subset _ ha)) fun d hd => ?_
      have hdepth := h.inv.depth d hd
      rw [List.length_dropLast]
      omega
    exact hpopped.inv_of_setPc (by omega) (he.symm.trans ht)

theorem length_lt_of_stackFull_eq_false {s : State} (h : s.Inv) (hfull : stackFull s = false) {d : Nat}
    (hd : s.config.stackDepth = some d) : s.stack.length < d := by
  have hle := h.depth d hd
  have hne : s.stack.length ≠ d := by simpa [stackFull, hd] using hfull
  omega

/-- The return address pushed is PC + 2, and a full stack is not pushed to (R26, R106). -/
theorem Executing.inv_of_execCall {s t : State} (h : Executing s) {nnn : BitVec 12} (ht : execCall nnn s = .next t) :
    t.Inv := by
  rcases execCall_cases nnn s with ⟨-, he⟩ | ⟨hfull, he⟩
  · exact h.inv.raiseFault (he.symm.trans ht)
  · have hpushed : Executing (push (s.pc + 2) s) := by
      refine h.setStack (fun a ha => ?_) fun d hd => ?_
      · rcases List.mem_append.mp ha with hold | hnew
        · exact h.inv.stack a hold
        · have hpc := h.pc
          obtain rfl := List.mem_singleton.mp hnew
          bv_omega
      · simpa using length_lt_of_stackFull_eq_false h.inv hfull hd
    exact hpushed.inv_of_setPc (toNat_addressOf_le nnn) (he.symm.trans ht)

/-- Every instruction keeps the invariant at its own word. Those with no case of their own update fields the invariant
does not read and advance PC. -/
theorem Executing.inv_of_exec {s t : State} (h : Executing s) {i : Instr} (hfetch : fetchWord s = some (encode i))
    (ht : exec i s = .next t) : t.Inv := by
  cases i with
  | ret => exact h.inv_of_execRet ht
  | call => exact h.inv_of_execCall ht
  | jp nnn => exact h.inv_of_setPc (toNat_addressOf_le nnn) ht
  | jpV0 nnn => exact h.inv_of_setPc (toNat_jumpTarget_le s nnn) ht
  | seImm | sneImm | seReg | sneReg | skp | sknp => exact h.inv_of_skipOn ht
  | orReg | andReg | xorReg => exact h.inv_of_logicOp ht
  | ldVxK x => exact Host.Outcome.next.inj ht ▸ h.inv.setRun_awaitingKey hfetch nofun
  | drw => exact h.inv_of_withRange (fun _ => (h.finishDraw _).advance) ht
  | ldVxMem => exact h.inv_of_withRange (fun _ => (h.load _ _).advance) ht
  | ldB =>
    refine h.inv_of_withRange (fun hin => ?_) ht
    exact (h.storeBytes_dataAddress (length_bcdDigits _) (by decide) hin).advance
  | ldMemVx x =>
    refine h.inv_of_withRange (fun hin => ?_) ht
    exact (h.storeBytes_dataAddress (length_firstRegs s x) (Nat.succ_pos _) hin).congr.advance
  | _ => exact h.congr.inv_of_advance ht

/-! ### The agents -/

theorem inv_of_engineStep {s t : State} (h : s.Inv) (ht : engineStep s = .next t) : t.Inv := by
  rcases engineStep_cases s with ⟨-, he⟩ | ⟨-, -, he⟩ | ⟨-, -, -, he⟩ | ⟨w, hrun, -, hfetch, he⟩
  · exact Host.Outcome.next.inj (he.symm.trans ht) ▸ h
  · exact Host.Outcome.next.inj (he.symm.trans ht) ▸ h.setRun nofun
  · exact h.raiseFault (he.symm.trans ht)
  · have hexec : Executing s := ⟨h, hrun, pc_le_of_fetchWord hfetch⟩
    exact hexec.inv_of_exec (i := decodeWord w) (by rw [encode_decodeWord, hfetch]) (he.symm.trans ht)

theorem inv_timerTick {s : State} (h : s.Inv) : (timerTick s).Inv := by
  cases ha : s.active with
  | true =>
    rw [timerTick_active s ha]
    exact h.congr
  | false =>
    rw [timerTick_terminal s ha]
    exact h

theorem inv_latchKey {s : State} (h : s.Inv) {k : KeyCode} (hk : s.keys.getLsbD k.val = true) : (latchKey k s).Inv := by
  unfold latchKey
  split
  case h_1 x hrun => exact h.setRun_awaitingKey (h.waiting x none hrun) (by simpa using hk)
  all_goals exact h

theorem inv_keyDown {s : State} (h : s.Inv) (k : KeyCode) : (keyDown k s).Inv := by
  have hheld (j : KeyCode) (hj : j = k ∨ s.keys.getLsbD j.val = true) :
      (s.keys ||| keyMask k).getLsbD j.val = true := by
    rw [getLsbD_or_keyMask]
    simpa [or_comm] using hj
  unfold keyDown
  split
  · split
    · exact h
    · exact inv_latchKey (h.setKeys fun x j hwait => hheld j (.inr (h.latched x j hwait))) (hheld k (.inl rfl))
  · exact h

/-- A pending wait is at its own FX0A, so PC has room to advance when it ends (R41, R204). -/
theorem executing_setRun_running {s : State} (h : s.Inv) {x : RegIdx} {latch : Option KeyCode}
    (hrun : s.run = .awaitingKey x latch) : Executing (s.setRun .running) :=
  ⟨h.setRun nofun, rfl, pc_le_of_fetchWord (h.waiting x latch hrun)⟩

/-- The release of a key ends the wait that has latched it; no other latched key is released (R212). -/
theorem inv_resolveWait {s : State} (h : s.Inv) (k : KeyCode) :
    (resolveWait k (s.setKeys (s.keys &&& ~~~ keyMask k))).Inv := by
  have hother (hk : ∀ x, s.run ≠ .awaitingKey x (some k)) : (s.setKeys (s.keys &&& ~~~ keyMask k)).Inv := by
    refine h.setKeys fun x j hwait => ?_
    have hjk : j ≠ k := fun hjk => hk x (hjk ▸ hwait)
    rw [getLsbD_and_not_keyMask, h.latched x j hwait, decide_eq_true hjk, Bool.and_self]
  unfold resolveWait
  split
  case h_1 x k' hrun =>
    split
    · have hended : Executing
          (((s.setKeys (s.keys &&& ~~~ keyMask k)).setReg x (BitVec.ofNat 8 k.val)).setRun .running) :=
        (executing_setRun_running h hrun).congr
      exact hended.advance
    · refine hother fun y hy => ?_
      cases hrun.symm.trans hy
      contradiction
  all_goals
    rename_i hrun
    exact hother fun y hy => nomatch hrun.symm.trans hy

theorem inv_keyUp {s : State} (h : s.Inv) (k : KeyCode) : (keyUp k s).Inv := by
  unfold keyUp
  split
  · split
    · exact inv_resolveWait h k
    · exact h
  · exact h

theorem inv_quit {s : State} (h : s.Inv) : (quit s).Inv := by
  unfold quit
  split
  · exact h.setRun nofun
  · exact h

theorem inv_of_transition {s t : State} (h : s.Inv) {tr : Transition} (ht : transition tr s = .next t) : t.Inv := by
  cases tr with
  | engineStep => exact inv_of_engineStep h ht
  | timerTick => exact Host.Outcome.next.inj ht ▸ inv_timerTick h
  | keyDown k => exact Host.Outcome.next.inj ht ▸ inv_keyDown h k
  | keyUp k => exact Host.Outcome.next.inj ht ▸ inv_keyUp h k
  | quit => exact Host.Outcome.next.inj ht ▸ inv_quit h

/-- Settles O15: every step is a transition of an agent, and each keeps the invariant. -/
theorem stepKeepsInvariant : Obligations.StepKeepsInvariant := by
  intro s t h ht
  rcases step_cases s with ⟨-, hstep⟩ | ⟨tr, rest, -, hstep⟩
  · exact inv_of_engineStep h (hstep.symm.trans ht)
  · have hrest : (s.setSchedule rest).Inv := h.congr
    exact inv_of_transition hrest (hstep.symm.trans ht)

end Sys2Proof.Machine

/-! # Reset and launch (R40, R250 to R257) -/

namespace Sys2Proof.Machine

/-- A Running state with an empty stack and PC at `ROM_START` meets the invariant when its memory and ROM_SIZE do. -/
theorem inv_of_start {s : State} (hrun : s.run = .running) (hpc : s.pc = 0x200) (hstack : s.stack = [])
    (hskip : s.skip = false) (hmem : Memory.wf s.mem = true) (hrom : s.romSize ≤ romRoom) : s.Inv :=
  inv_of_not_waiting (ne_awaitingKey_of_running hrun) hmem hskip hrom (by rw [hpc]; decide) (by simp [hstack])
    (by simp [hstack])

/-- R221 says nothing of a state that has not ended. -/
theorem causeRecorded_of_running {s : State} (h : s.run = .running) : s.CauseRecorded where
  exhausted hend := nomatch h.symm.trans hend
  unhalted _ hend := nomatch h.symm.trans hend
  underflow hend := nomatch h.symm.trans hend
  overflow hend := nomatch h.symm.trans hend
  fetch hend := nomatch h.symm.trans hend
  range hend := nomatch h.symm.trans hend

/-- Settles O13. -/
theorem resetMeetsInvariants : Obligations.ResetMeetsInvariants :=
  ⟨inv_of_start rfl rfl rfl rfl wf_reset_memory (Nat.zero_le _), causeRecorded_of_running rfl⟩

/-- Font and ROM fit in memory (R65). -/
theorem wf_launchMemory (font : Vector Byte 80) {rom : List Byte} (hrom : rom.length ≤ romRoom) :
    Memory.wf (Memory.writeList (Memory.writeList [] fontBase font.toList) romStart rom) = true := by
  have hfont : fontBase + font.toList.length ≤ memSize := by
    rw [Vector.length_toList]
    decide
  have hfits : romStart + rom.length ≤ memSize := Nat.add_le_add_left hrom romStart
  exact wf_writeList (wf_writeList wf_reset_memory hfont) hfits

/-- Settles O14: a launch answers only for a ROM that fits, and then both stores are inside memory. -/
theorem launchMeetsInvariant : Obligations.LaunchMeetsInvariant := by
  intro l t ht
  unfold launch loadRom at ht
  split at ht
  case isTrue hrom =>
    obtain rfl := Host.Outcome.next.inj ht
    exact ⟨inv_of_start rfl rfl rfl rfl (wf_launchMemory l.font hrom) hrom, causeRecorded_of_running rfl⟩
  case isFalse => cases ht

/-- Outside the font the reset image is 0 (R40). -/
theorem background_outside_font {a : Nat} (h : a < 0x050 ∨ 0x09F < a) : background a = 0 := by
  unfold background
  split
  case isTrue => rfl
  case isFalse hfont =>
    have hend : a - fontBase ≥ defaultFont.length := by
      simp only [fontBase, show defaultFont.length = 80 from rfl] at hfont ⊢
      omega
    rw [List.getD_eq_getElem?_getD, List.getElem?_eq_none hend]
    rfl

/-- Settles O21: the reset memory lists no cell, so it reads as the reset image. -/
theorem resetValues : Obligations.ResetValues := by
  have hreg (r : RegIdx) : State.reset.reg r = 0 := by simp [State.reg, State.reset]
  have hmem : ∀ a < 4096, (a < 0x050 ∨ 0x09F < a) → State.reset.readByte a = 0 :=
    fun _ _ h => background_outside_font h
  exact ⟨hreg, rfl, rfl, rfl, rfl, rfl, rfl, pixelAt_blankScreen, rfl, rfl, rfl, rfl, hmem, rfl, rfl, rfl, rfl, rfl,
    rfl, rfl, rfl⟩

end Sys2Proof.Machine

/-! # The canonical form of MEM is determined by its reads (R53; log 5) -/

namespace Sys2Proof.Machine

/-- A cell below every cell of another memory makes the two read differently at its address. -/
theorem read_ne_of_head_below {lo hi a : Nat} {b : Byte} {m m' : Memory}
    (h : Memory.wfFrom lo ((a, b) :: m) = true) (h' : Memory.wfFrom hi m' = true) (ha : a < hi) :
    Memory.read ((a, b) :: m) a ≠ Memory.read m' a := by
  obtain ⟨-, -, hb, -⟩ := (wfFrom_cons ..).mp h
  simpa [Memory.read, read_below h' ha] using hb

/-- Two canonical memories that read alike, by induction on their cells: their first cells have one address, and so one
byte, since the lower of two addresses would read differently; the tails read alike, as both are unlisted there. -/
theorem eq_of_read_eq {lo lo' : Nat} {m m' : Memory} (h : Memory.wfFrom lo m = true) (h' : Memory.wfFrom lo' m' = true)
    (hread : ∀ a < memSize, Memory.read m a = Memory.read m' a) : m = m' := by
  induction m generalizing lo lo' m' with
  | nil =>
    cases m' with
    | nil => rfl
    | cons c' m' =>
      obtain ⟨-, hc', -, -⟩ := (wfFrom_cons ..).mp h'
      exact absurd (hread c'.1 hc').symm (read_ne_of_head_below (hi := c'.1 + 1) h' rfl (by omega))
  | cons c m ih =>
    obtain ⟨a, b⟩ := c
    obtain ⟨-, ha, hb, hm⟩ := (wfFrom_cons ..).mp h
    cases m' with
    | nil => exact absurd (hread a ha) (read_ne_of_head_below (hi := a + 1) h rfl (by omega))
    | cons c' m' =>
      obtain ⟨a', b'⟩ := c'
      obtain ⟨-, ha', hb', hm'⟩ := (wfFrom_cons ..).mp h'
      have hhead : Memory.wfFrom a ((a, b) :: m) = true := (wfFrom_cons ..).mpr ⟨le_rfl, ha, hb, hm⟩
      have hhead' : Memory.wfFrom a' ((a', b') :: m') = true := (wfFrom_cons ..).mpr ⟨le_rfl, ha', hb', hm'⟩
      rcases Nat.lt_trichotomy a a' with hlt | rfl | hgt
      · exact absurd (hread a ha) (read_ne_of_head_below h hhead' hlt)
      · have hbyte : b = b' := by simpa [Memory.read] using hread a ha
        have htail : m = m' := ih hm hm' fun x hx => by
          by_cases hxa : x = a
          · rw [hxa, read_below hm (by omega), read_below hm' (by omega)]
          · simpa [Memory.read, hxa] using hread x hx
        rw [hbyte, htail]
      · exact absurd (hread a' ha').symm (read_ne_of_head_below h' hhead hgt)

/-- Settles O20. -/
theorem equalReadsEqualMemories : Obligations.EqualReadsEqualMemories :=
  fun _ _ h h' hread => eq_of_read_eq h h' hread

end Sys2Proof.Machine

/-! # What each instruction may write (R42) -/

namespace Sys2Proof.Machine

/-! ### Frames

An update with no branch has the frame `fs` when it is `State.withFields fs` of its own result, which holds by
computation. -/

/-- The state `s` with the listed fields taken from `t`. -/
def State.withFields (fs : List Field) (s t : State) : State where
  v := if .v ∈ fs then t.v else s.v
  i := if .i ∈ fs then t.i else s.i
  pc := if .pc ∈ fs then t.pc else s.pc
  stack := if .stack ∈ fs then t.stack else s.stack
  dt := if .dt ∈ fs then t.dt else s.dt
  st := if .st ∈ fs then t.st else s.st
  snd := if .snd ∈ fs then t.snd else s.snd
  mem := if .mem ∈ fs then t.mem else s.mem
  fb := if .fb ∈ fs then t.fb else s.fb
  keys := if .keys ∈ fs then t.keys else s.keys
  run := if .run ∈ fs then t.run else s.run
  skip := if .skip ∈ fs then t.skip else s.skip
  romSize := if .romSize ∈ fs then t.romSize else s.romSize
  config := if .config ∈ fs then t.config else s.config
  draws := if .draws ∈ fs then t.draws else s.draws
  schedule := if .schedule ∈ fs then t.schedule else s.schedule
  trace := if .trace ∈ fs then t.trace else s.trace

theorem changesOnly_withFields (fs : List Field) (s t : State) : changesOnly fs s (s.withFields fs t) := by
  intro f hf
  cases f <;> simp [keeps, State.withFields, State.reg, State.readByte, hf]

theorem changesOnly_update {fs : List Field} {s t : State} (h : s.withFields fs t = t := by rfl) : changesOnly fs s t :=
  h ▸ changesOnly_withFields fs s t

theorem keeps_trans {s t u : State} {f : Field} (hst : keeps s t f) (htu : keeps t u f) : keeps s u f := by
  cases f with
  | v => exact fun r => (htu r).trans (hst r)
  | mem => exact fun a => (htu a).trans (hst a)
  | fb => exact fun x y => (htu x y).trans (hst x y)
  | _ => exact Eq.trans htu hst

theorem changesOnly.trans {fs : List Field} {s t u : State} (hst : changesOnly fs s t) (htu : changesOnly fs t u) :
    changesOnly fs s u := fun f hf => keeps_trans (hst f hf) (htu f hf)

theorem changesOnly_of_next {fs : List Field} {s t u : State} (ht : (.next u : Answer) = .next t)
    (hu : changesOnly fs s u) : changesOnly fs s t :=
  Host.Outcome.next.inj ht ▸ hu

/-! ### The shared shapes of the instructions -/

theorem changesOnly_finishDraw (s : State) (d : Draw) :
    changesOnly [.v, .fb, .pc, .run, .trace] s (advance (finishDraw d s)) := changesOnly_update

theorem changesOnly_load (s : State) (v : Vector Byte 16) (i : Word) :
    changesOnly [.v, .i, .pc, .run] s (advance ((s.setRegs v).setI i)) := changesOnly_update

/-- A fault changes RUN alone (R224). -/
theorem changesOnly_raiseFault {fs : List Field} {s t : State} {c : Fault} (hrun : .run ∈ fs)
    (ht : raiseFault c s = .next t) : changesOnly fs s t :=
  changesOnly_of_next ht (changesOnly_update (by simp [State.withFields, State.setRun, hrun]))

theorem changesOnly_withRange {fs : List Field} {s t u : State} {n : Nat} (hrun : .run ∈ fs)
    (hu : changesOnly fs s u) (ht : withRange n s u = .next t) : changesOnly fs s t := by
  rcases withRange_cases s u n with ⟨-, hnext⟩ | ⟨-, hfault⟩
  · exact changesOnly_of_next (hnext.symm.trans ht) hu
  · exact changesOnly_raiseFault hrun (hfault.symm.trans ht)

theorem changesOnly_skipOn {s t : State} {c : Bool} (ht : skipOn c s = .next t) : changesOnly [.pc, .skip] s t := by
  have hwhen : changesOnly [.pc, .skip] s (skipWhen c s) := by cases c <;> exact changesOnly_update
  have hadvance (u : State) : changesOnly [.pc, .skip] u (skipAdvance u) := by
    unfold skipAdvance
    split <;> exact changesOnly_update
  exact changesOnly_of_next ht (hwhen.trans (hadvance _))

theorem changesOnly_clearFlagForLogic (s : State) : changesOnly [.v, .pc] s (clearFlagForLogic s) := by
  unfold clearFlagForLogic
  split <;> exact changesOnly_update

theorem changesOnly_logicOp {s t : State} {f : Byte → Byte → Byte} {x y : RegIdx} (ht : logicOp f x y s = .next t) :
    changesOnly [.v, .pc] s t :=
  changesOnly_of_next ht ((changesOnly_clearFlagForLogic s).trans changesOnly_update)

theorem changesOnly_execRet {s t : State} (ht : execRet s = .next t) : changesOnly [.stack, .pc, .run] s t := by
  rcases execRet_cases s with ⟨-, he⟩ | ⟨top, -, he⟩
  · exact changesOnly_raiseFault (by decide) (he.symm.trans ht)
  · exact changesOnly_of_next (he.symm.trans ht) changesOnly_update

theorem changesOnly_execCall {s t : State} {nnn : BitVec 12} (ht : execCall nnn s = .next t) :
    changesOnly [.stack, .pc, .run] s t := by
  rcases execCall_cases nnn s with ⟨-, he⟩ | ⟨-, he⟩
  · exact changesOnly_raiseFault (by decide) (he.symm.trans ht)
  · exact changesOnly_of_next (he.symm.trans ht) changesOnly_update

/-- The fields an instruction changes are those R42 lists; the instructions with no case of their own are one update. -/
theorem changesOnly_exec {i : Instr} {s t : State} (ht : exec i s = .next t) : changesOnly (mayWrite i) s t := by
  cases i with
  | ret => exact changesOnly_execRet ht
  | call => exact changesOnly_execCall ht
  | seImm | sneImm | seReg | sneReg | skp | sknp => exact changesOnly_skipOn ht
  | orReg | andReg | xorReg => exact changesOnly_logicOp ht
  | drw => exact changesOnly_withRange (by simp [mayWrite]) (changesOnly_finishDraw _ _) ht
  | ldVxMem => exact changesOnly_withRange (by simp [mayWrite]) (changesOnly_load _ _ _) ht
  | ldB | ldMemVx => exact changesOnly_withRange (by simp [mayWrite]) changesOnly_update ht
  | _ => exact changesOnly_of_next ht changesOnly_update

/-! ### Registers -/

theorem reg_of_logicOp {s t : State} {f : Byte → Byte → Byte} {x y r : RegIdx} (hx : r ≠ x)
    (hvf : s.config.vfReset = true → r ≠ vf) (ht : logicOp f x y s = .next t) : t.reg r = s.reg r := by
  have hclear : (clearFlagForLogic s).reg r = s.reg r := by
    unfold clearFlagForLogic
    split
    case isTrue hreset => exact reg_setReg_other s vf r 0 (hvf hreset)
    case isFalse => rfl
  obtain rfl := Host.Outcome.next.inj ht
  exact (reg_setReg_other _ x r _ hx).trans hclear

theorem reg_finishDraw_other (s : State) (d : Draw) {r : RegIdx} (h : r ≠ vf) :
    (advance (finishDraw d s)).reg r = s.reg r :=
  reg_setReg_other (s.setFb d.fb) vf r (flagByte d.collision) h

theorem reg_load_above (s : State) (i : Word) {x r : RegIdx} (h : x.val < r.val) :
    (advance ((s.setRegs (loadedRegs s x)).setI i)).reg r = s.reg r :=
  (getElem_loadedRegs s x r).trans (if_neg (Nat.not_le.mpr h))

theorem reg_of_withRange {s t u : State} {n : Nat} {r : RegIdx} (hu : u.reg r = s.reg r)
    (ht : withRange n s u = .next t) : t.reg r = s.reg r := by
  rcases withRange_cases s u n with ⟨-, hnext⟩ | ⟨-, hfault⟩
  · exact Host.Outcome.next.inj (hnext.symm.trans ht) ▸ hu
  · exact Host.Outcome.next.inj (hfault.symm.trans ht) ▸ rfl

/-- A register that an instruction neither names as its destination nor writes as a flag is as it was (R22, R144); where
V is not on the instruction's list this is its frame. -/
theorem reg_of_exec {i : Instr} {s t : State} (ht : exec i s = .next t) {r : RegIdx}
    (hr : mayWriteReg s.config i r = false) : t.reg r = s.reg r := by
  cases i with
  | ldImm | addImm | ldReg | rnd | ldVxDt =>
    obtain rfl := Host.Outcome.next.inj ht
    exact reg_setReg_other _ _ _ _ (by simpa [mayWriteReg] using hr)
  | orReg | andReg | xorReg =>
    obtain ⟨hx, hvf⟩ : _ ∧ _ := by simpa [mayWriteReg] using hr
    exact reg_of_logicOp hx hvf ht
  | addReg x | subReg x | shr x | subnReg x | shl x =>
    obtain ⟨hx, hvf⟩ : r ≠ x ∧ r ≠ vf := by simpa [mayWriteReg] using hr
    obtain rfl := Host.Outcome.next.inj ht
    exact (writeWithFlag_reg _ _ _ _ _ hvf).trans (if_neg hx)
  | drw => exact reg_of_withRange (reg_finishDraw_other _ _ (by simpa [mayWriteReg] using hr)) ht
  | ldVxMem => exact reg_of_withRange (reg_load_above _ _ (by simpa [mayWriteReg] using hr)) ht
  | _ => exact changesOnly_exec ht .v (by simp [mayWrite]) r

/-- Settles O18. -/
theorem instructionsWriteOnlyTheirState : Obligations.InstructionsWriteOnlyTheirState :=
  fun _ _ _ ht => ⟨changesOnly_exec ht, fun _ hr => reg_of_exec ht hr⟩

end Sys2Proof.Machine

/-! # The fetch and the data range (R54, R56) -/

namespace Sys2Proof.Machine

/-- The byte of the lower address is the high one (R54). -/
theorem toNat_wordOfBytes (hi lo : Byte) : (wordOfBytes hi lo).toNat = 256 * hi.toNat + lo.toNat := by
  rw [wordOfBytes, BitVec.toNat_append, ← Nat.shiftLeft_add_eq_or_of_lt lo.isLt, Nat.shiftLeft_eq, Nat.mul_comm]

/-- Settles O6. -/
theorem fetchIsBigEndian : Obligations.FetchIsBigEndian :=
  fun s hpc => ⟨_, fetchWord_eq s hpc, toNat_wordOfBytes _ _⟩

/-- Settles O9: of what an engine step can do, only the fault at the fetch is left. -/
theorem fetchAtLastByteFaults : Obligations.FetchAtLastByteFaults := by
  intro s hrun hpc hbound
  rcases engineStep_cases s with ⟨hidle, -⟩ | ⟨-, hhalt, -⟩ | ⟨-, -, -, hstep⟩ | ⟨w, -, -, hfetch, -⟩
  · exact absurd hrun hidle
  · rw [haltCheck_iff, memSize, romStart] at hhalt
    omega
  · exact ⟨_, hstep, rfl, changesOnly_update⟩
  · have := pc_le_of_fetchWord hfetch
    omega

/-- An instruction that uses data bytes checks exactly their range first (R56). -/
theorem exec_eq_withRange {i : Instr} (hpos : 0 < dataBytes i) (s : State) :
    ∃ u, exec i s = withRange (dataBytes i) s u := by
  cases i with
  | drw | ldB | ldMemVx | ldVxMem => exact ⟨_, rfl⟩
  | _ => exact absurd hpos (Nat.lt_irrefl 0)

/-- Settles O43: the check fails, whatever the instruction would have done. -/
theorem rangeFaultsChangeNothing : Obligations.RangeFaultsChangeNothing := by
  intro i s hpos hrange
  obtain ⟨u, hexec⟩ := exec_eq_withRange hpos s
  have hout : inMemory (dataAddress s) (dataBytes i) = false := (inMemory_eq_false_iff _ _).mpr ⟨hpos, hrange⟩
  exact ⟨_, hexec.trans (withRange_out s u _ hout), rfl, changesOnly_update⟩

/-! ### A store that the fetch sees (R63) -/

/-- FX55 whose range is in memory (R176). -/
theorem exec_ldMemVx_in {x : RegIdx} {s : State} (hrange : dataAddress s + x.val < memSize) :
    exec (.ldMemVx x) s =
      .next (advance ((s.storeBytes (dataAddress s) (firstRegs s x)).setI (indexAfter s x))) :=
  withRange_in _ _ _ ((inMemory_iff _ _).mpr (.inr hrange))

/-- FX55 puts each of V0 to V[X] at its place from I on (R59, R176). -/
theorem readByte_of_exec_ldMemVx {x r : RegIdx} {s t : State} (hwf : Memory.wf s.mem = true)
    (hrange : dataAddress s + x.val < memSize) (hexec : exec (.ldMemVx x) s = .next t) (hr : r ≤ x) :
    t.readByte (dataAddress s + r.val) = s.reg r := by
  have hr' : r.val ≤ x.val := hr
  have hfits : dataAddress s + (firstRegs s x).length ≤ memSize := by
    rw [length_firstRegs]
    exact hrange
  obtain rfl := Host.Outcome.next.inj ((exec_ldMemVx_in hrange).symm.trans hexec)
  calc (s.storeBytes (dataAddress s) (firstRegs s x)).readByte (dataAddress s + r.val)
      = (firstRegs s x).getD r.val 0 := by
        rw [storeBytes_readByte hwf hfits, length_firstRegs, if_pos (by omega), Nat.add_sub_cancel_left]
    _ = s.reg r := getD_firstRegs s x r hr

/-- Settles O45: V0 and V1 stand at the two addresses of the next fetch. -/
theorem storeIsSeenByNextFetch : Obligations.StoreIsSeenByNextFetch := by
  intro x s t hwf hx hrange hdata hexec
  have hpc : t.pc.toNat = dataAddress s := by
    obtain rfl := Host.Outcome.next.inj ((exec_ldMemVx_in hrange).symm.trans hexec)
    have hnext : (s.pc + 2).toNat = s.pc.toNat + 2 := by bv_omega
    exact hnext.trans hdata.symm
  have hV0 : t.readByte t.pc.toNat = s.reg 0 :=
    hpc ▸ readByte_of_exec_ldMemVx hwf hrange hexec (Fin.zero_le x)
  have hV1 : t.readByte (t.pc.toNat + 1) = s.reg 1 :=
    hpc ▸ readByte_of_exec_ldMemVx (r := 1) hwf hrange hexec hx
  obtain ⟨w, hfetch, hw⟩ := fetchIsBigEndian t (by omega)
  exact ⟨w, hfetch, by rw [hw, hV0, hV1]⟩

end Sys2Proof.Machine

/-! # What the other agents may write (R60) -/

namespace Sys2Proof.Machine

theorem changesOnly.refl (fs : List Field) (s : State) : changesOnly fs s s :=
  changesOnly_update (by simp [State.withFields])

theorem changesOnly.mono {fs gs : List Field} {s t : State} (h : changesOnly fs s t) (hsub : fs ⊆ gs) :
    changesOnly gs s t :=
  fun f hf => h f (mt (@hsub f) hf)

theorem changesOnly.ite {fs : List Field} {s t u : State} {c : Prop} [Decidable c] (ht : changesOnly fs s t)
    (hu : changesOnly fs s u) : changesOnly fs s (if c then t else u) := by
  split
  · exact ht
  · exact hu

/-- A tick writes the timers and SND and emits its audio event (R208). -/
theorem changesOnly_timerTick (s : State) : changesOnly [.dt, .st, .snd, .trace] s (timerTick s) := by
  cases hactive : s.active with
  | true =>
    rw [timerTick_active s hactive]
    exact changesOnly_update
  | false =>
    rw [timerTick_terminal s hactive]
    exact .refl _ s

theorem changesOnly_latchKey (k : KeyCode) (s : State) : changesOnly [.keys, .run] s (latchKey k s) := by
  unfold latchKey
  split <;> exact changesOnly_update

/-- A key-down writes KEYS, and RUN where it is latched (R211). -/
theorem changesOnly_keyDown (k : KeyCode) (s : State) : changesOnly [.keys, .run] s (keyDown k s) :=
  .ite (.ite (.refl _ s) (.trans changesOnly_update (changesOnly_latchKey k _))) (.refl _ s)

theorem changesOnly_resolveWait (k : KeyCode) (s : State) :
    changesOnly [.v, .pc, .keys, .run] s (resolveWait k s) := by
  unfold resolveWait
  split
  case h_1 => exact .ite changesOnly_update (.refl _ s)
  all_goals exact .refl _ s

/-- A key-up writes KEYS, and V[x], PC and RUN where it ends a wait (R212). -/
theorem changesOnly_keyUp (k : KeyCode) (s : State) : changesOnly [.v, .pc, .keys, .run] s (keyUp k s) :=
  .ite (.ite (.trans changesOnly_update (changesOnly_resolveWait k _)) (.refl _ s)) (.refl _ s)

/-- A quit writes RUN alone (R226). -/
theorem changesOnly_quit (s : State) : changesOnly [.run] s (quit s) := .ite changesOnly_update (.refl _ s)

/-- Settles O19: the fields of each event are on the list. -/
theorem eventsTouchOnlyTheirState : Obligations.EventsTouchOnlyTheirState := by
  intro tr s htr
  cases tr with
  | engineStep => exact absurd rfl htr
  | timerTick => exact ⟨_, rfl, (changesOnly_timerTick s).mono (by decide)⟩
  | keyDown k => exact ⟨_, rfl, (changesOnly_keyDown k s).mono (by decide)⟩
  | keyUp k => exact ⟨_, rfl, (changesOnly_keyUp k s).mono (by decide)⟩
  | quit => exact ⟨_, rfl, (changesOnly_quit s).mono (by decide)⟩

end Sys2Proof.Machine

/-! # The memory map at launch (R65) -/

namespace Sys2Proof.Machine

/-- The font, the ROM over it, and 0 elsewhere (R65). -/
theorem read_launchMemory (font : Vector Byte 80) {rom : List Byte} (hrom : rom.length ≤ romRoom) (a : Nat) :
    Memory.read (Memory.writeList (Memory.writeList [] fontBase font.toList) romStart rom) a =
      if romStart ≤ a ∧ a < romStart + rom.length then rom.getD (a - romStart) 0
      else if 0x050 ≤ a ∧ a ≤ 0x09F then font.toList.getD (a - 0x050) 0
      else 0 := by
  have hfont : fontBase + font.toList.length ≤ memSize := by
    rw [Vector.length_toList]
    decide
  have hfits : romStart + rom.length ≤ memSize := Nat.add_le_add_left hrom romStart
  rw [read_writeList (wf_writeList wf_reset_memory hfont) hfits, read_writeList wf_reset_memory hfont,
    Vector.length_toList]
  congr 1
  by_cases ha : 0x050 ≤ a ∧ a ≤ 0x09F
  · have hin : fontBase ≤ a ∧ a < fontBase + 80 := ⟨ha.1, Nat.lt_succ_of_le ha.2⟩
    rw [if_pos ha, if_pos hin, fontBase]
  · have hout : ¬(fontBase ≤ a ∧ a < fontBase + 80) := fun h => ha ⟨h.1, Nat.le_of_lt_succ h.2⟩
    rw [if_neg ha, if_neg hout]
    exact background_outside_font (by omega)

/-- Settles O22. -/
theorem launchMemoryMap : Obligations.LaunchMemoryMap := by
  constructor
  · intro l hrom
    exact ⟨_, if_pos hrom, rfl, rfl, rfl, changesOnly_update, fun a _ => read_launchMemory l.font hrom a⟩
  · intro l hrom
    exact if_neg (Nat.not_le.mpr hrom)

end Sys2Proof.Machine

/-! # The decoder and the encoder undo each other (R75, R76, R82)

An instruction is the decoding of its own word exactly when it is well formed. Only the legacy calls (R77) and the
unrecognised words (R78) need an argument; both directions of the round trip follow, and with them R78 itself. -/

namespace Sys2Proof

variable {w : Word}

/-! ### The fields of a word as numbers (R71) -/

theorem toNat_opHi (w : Word) : (opHi w).toNat = w.toNat / 4096 := by
  have h := w.isLt
  simp only [opHi, BitVec.extractLsb'_toNat, Nat.shiftRight_eq_div_pow]
  omega

theorem toNat_fieldN (w : Word) : (fieldN w).toNat = w.toNat % 16 := by simp [fieldN]

theorem toNat_fieldNN (w : Word) : (fieldNN w).toNat = w.toNat % 256 := by simp [fieldNN]

/-! ### Legacy calls and unrecognised words (R77, R78) -/

theorem isLegacyCall_iff (nnn : BitVec 12) : isLegacyCall nnn = true ↔ nnn.toNat ≠ 0x0E0 ∧ nnn.toNat ≠ 0x0EE := by
  simp [isLegacyCall, BitVec.toNat_eq]

/-- The five sets of R78, by the fields of the word. -/
theorem isUnrecognised_iff (w : Word) : isUnrecognised w = true ↔
    ((opHi w).toNat = 0x5 ∧ (fieldN w).toNat ≠ 0x0) ∨
    ((opHi w).toNat = 0x8 ∧ (fieldN w).toNat ∈ [0x8, 0x9, 0xA, 0xB, 0xC, 0xD, 0xF]) ∨
    ((opHi w).toNat = 0x9 ∧ (fieldN w).toNat ≠ 0x0) ∨
    ((opHi w).toNat = 0xE ∧ (fieldNN w).toNat ∉ [0x9E, 0xA1]) ∨
    ((opHi w).toNat = 0xF ∧ (fieldNN w).toNat ∉ [0x07, 0x0A, 0x15, 0x18, 0x1E, 0x29, 0x33, 0x55, 0x65]) := by
  simp [isUnrecognised, toNat_opHi, toNat_fieldN, toNat_fieldNN, or_assoc]

/-! ### What each group leaves to its last case -/

theorem decodeGroup0_ne_unrecognised (u : Word) : decodeGroup0 w ≠ .unrecognised u := by
  unfold decodeGroup0
  split <;> exact Instr.noConfusion

theorem decodeGroup0_eq_sys_iff : decodeGroup0 w = .sys (fieldNNN w) ↔ isLegacyCall (fieldNNN w) = true := by
  rw [isLegacyCall_iff]
  unfold decodeGroup0
  split
  case h_3 hcls hret => exact iff_of_true rfl ⟨hcls, hret⟩
  all_goals simp [*]

theorem decodeGroup5_eq_unrecognised_iff : decodeGroup5 w = .unrecognised w ↔ (fieldN w).toNat ≠ 0x0 := by
  unfold decodeGroup5
  split
  case h_2 hn => exact iff_of_true rfl hn
  · simp [*]

theorem decodeGroup8_eq_unrecognised_iff :
    decodeGroup8 w = .unrecognised w ↔ (fieldN w).toNat ∈ [0x8, 0x9, 0xA, 0xB, 0xC, 0xD, 0xF] := by
  unfold decodeGroup8
  split
  case h_10 =>
    have hlt := (fieldN w).isLt
    simp only [List.mem_cons, List.not_mem_nil, true_iff]
    grind
  all_goals simp [*]

theorem decodeGroup9_eq_unrecognised_iff : decodeGroup9 w = .unrecognised w ↔ (fieldN w).toNat ≠ 0x0 := by
  unfold decodeGroup9
  split
  case h_2 hn => exact iff_of_true rfl hn
  · simp [*]

theorem decodeGroupE_eq_unrecognised_iff :
    decodeGroupE w = .unrecognised w ↔ (fieldNN w).toNat ∉ [0x9E, 0xA1] := by
  unfold decodeGroupE
  split
  case h_3 => simp_all
  all_goals simp [*]

theorem decodeGroupF_eq_unrecognised_iff :
    decodeGroupF w = .unrecognised w ↔
      (fieldNN w).toNat ∉ [0x07, 0x0A, 0x15, 0x18, 0x1E, 0x29, 0x33, 0x55, 0x65] := by
  unfold decodeGroupF
  split
  case h_10 => simp_all
  all_goals simp [*]

/-! ### The round trips -/

/-- Only the groups with a reserved set leave a word unrecognised (R78). -/
theorem decodeWord_eq_unrecognised_iff : decodeWord w = .unrecognised w ↔ isUnrecognised w = true := by
  rw [isUnrecognised_iff]
  unfold decodeWord
  split
  case h_1 => simp [decodeGroup0_ne_unrecognised, *]
  case h_6 => simp [decodeGroup5_eq_unrecognised_iff, *]
  case h_9 => simp [decodeGroup8_eq_unrecognised_iff, *]
  case h_10 => simp [decodeGroup9_eq_unrecognised_iff, *]
  case h_15 => simp [decodeGroupE_eq_unrecognised_iff, *]
  case h_16 =>
    have hlt := (opHi w).isLt
    have hop : (opHi w).toNat = 0xF := by grind
    simp [decodeGroupF_eq_unrecognised_iff, hop]
  all_goals simp [*]

theorem decodeWord_encode_sys_iff (nnn : BitVec 12) :
    decodeWord (encode (.sys nnn)) = .sys nnn ↔ isLegacyCall nnn = true := by
  have hgroup : decodeWord (encodeA 0x0#4 nnn) = decodeGroup0 (encodeA 0x0#4 nnn) := by simp [decodeWord]
  have hsys := decodeGroup0_eq_sys_iff (w := encodeA 0x0#4 nnn)
  rwa [← hgroup, fieldNNN_encodeA] at hsys

/-- An instruction is the decoding of its own word exactly when it is well formed. The fields of a word of each format
(R72) are the instruction's operands, so the well-formed families decode to themselves. -/
theorem decodeWord_encode_eq_self_iff (i : Instr) : decodeWord (encode i) = i ↔ wellFormed i = true := by
  cases i with
  | sys nnn => exact decodeWord_encode_sys_iff nnn
  | unrecognised w => exact decodeWord_eq_unrecognised_iff
  | cls | ret => exact iff_of_true rfl rfl
  | jp | call | ldI | jpV0 | seImm | sneImm | ldImm | addImm | rnd | drw =>
    exact iff_of_true (by simp [encode, decodeWord]) rfl
  | seReg => exact iff_of_true (by simp [encode, decodeWord, decodeGroup5]) rfl
  | ldReg | orReg | andReg | xorReg | addReg | subReg | shr | subnReg | shl =>
    exact iff_of_true (by simp [encode, decodeWord, decodeGroup8]) rfl
  | sneReg => exact iff_of_true (by simp [encode, decodeWord, decodeGroup9]) rfl
  | skp | sknp => exact iff_of_true (by simp [encode, decodeWord, decodeGroupE]) rfl
  | ldVxDt | ldVxK | ldDtVx | ldStVx | addI | ldF | ldB | ldMemVx | ldVxMem =>
    exact iff_of_true (by simp [encode, decodeWord, decodeGroupF]) rfl

/-- Settles O2. -/
theorem decodeAfterEncode : Obligations.DecodeAfterEncode := fun i => (decodeWord_encode_eq_self_iff i).mpr

/-- A decoded instruction is the decoding of its own word, so it is well formed. -/
theorem wellFormed_decodeWord (w : Word) : wellFormed (decodeWord w) = true :=
  (decodeWord_encode_eq_self_iff _).mp (congrArg decodeWord (encode_decodeWord w))

/-- Settles O3. -/
theorem encodeAfterDecode : Obligations.EncodeAfterDecode :=
  fun w => ⟨wellFormed_decodeWord w, encode_decodeWord w⟩

/-- Settles O5: the unrecognised instruction a word decodes to carries that word, and the words that decode so are the
five sets. -/
theorem unrecognisedWordsAreTheReservedSets : Obligations.UnrecognisedWordsAreTheReservedSets := by
  intro w
  have hself : (∃ u, decodeWord w = .unrecognised u) ↔ decodeWord w = .unrecognised w := by
    refine ⟨fun ⟨u, h⟩ => ?_, fun h => ⟨w, h⟩⟩
    have hu : u = w := (congrArg encode h).symm.trans (encode_decodeWord w)
    rw [h, hu]
  rw [hself, decodeWord_eq_unrecognised_iff, isUnrecognised_iff, toNat_opHi, toNat_fieldN, toNat_fieldNN]

/-! ### Totality of the step (R75, R220), and the sample words -/

/-- Settles O11: a fault of the machine is a next state (log 10), so this is a clause of what every step does. -/
theorem everyStepAnswersNextState : Obligations.EveryStepAnswersNextState := fun s =>
  (Machine.exists_step_eq_next s).imp fun _ h => h.1

/-- Settles O1: the decoder computes on the twelve words. -/
theorem sampleWordsDecode : Obligations.SampleWordsDecode :=
  ⟨rfl, rfl, rfl, rfl, rfl, rfl, rfl, rfl, rfl, rfl, rfl, rfl⟩

end Sys2Proof

/-! # The decoder and the opcode table (R76, R84)

Every mask of the table keeps whole fields, so being on a row says which fields the word has, and those are the fields
the decoder dispatches on (R74). In each case of the decoder the table is read down to its first row that holds. -/

namespace Sys2Proof

variable {w : Word}

/-! ### What a masked word is, in its fields -/

theorem encodeA_eq_iff (op : BitVec 4) (nnn : BitVec 12) (p : Word) :
    encodeA op nnn = p ↔ op.toNat = p.toNat / 4096 ∧ nnn.toNat = p.toNat % 4096 := by
  have hlt := nnn.isLt
  rw [← BitVec.toNat_inj, encodeA, BitVec.toNat_append, ← Nat.shiftLeft_add_eq_or_of_lt hlt, Nat.shiftLeft_eq]
  omega

theorem toNat_zero_append {m n : Nat} (b : BitVec n) : (0#m ++ b).toNat = b.toNat := by
  simp [BitVec.toNat_append]

@[simp] theorem and_opMask_eq_iff (w p : Word) :
    w &&& 0xF000#16 = p ↔ (opHi w).toNat = p.toNat / 4096 ∧ 0 = p.toNat % 4096 := by
  have h := encodeA_and (opHi w) (fieldNNN w)
  rw [encodeA_fields] at h
  rw [h, encodeA_eq_iff, BitVec.toNat_zero]

@[simp] theorem and_opNMask_eq_iff (w p : Word) :
    w &&& 0xF00F#16 = p ↔ (opHi w).toNat = p.toNat / 4096 ∧ (fieldN w).toNat = p.toNat % 4096 := by
  have h := encodeR_andN (opHi w) (fieldX w) (fieldY w) (fieldN w)
  rw [encodeR_fields] at h
  rw [h, encodeA_eq_iff, toNat_zero_append]

@[simp] theorem and_opNNMask_eq_iff (w p : Word) :
    w &&& 0xF0FF#16 = p ↔ (opHi w).toNat = p.toNat / 4096 ∧ (fieldNN w).toNat = p.toNat % 4096 := by
  have h := encodeK_and (opHi w) (fieldX w) (fieldNN w)
  have hw : encodeK (opHi w) (fieldX w) (fieldNN w) = w := encodeI_fields w
  rw [hw] at h
  rw [h, encodeA_eq_iff, toNat_zero_append]

@[simp] theorem and_fullMask_eq_iff (w p : Word) :
    w &&& 0xFFFF#16 = p ↔ (opHi w).toNat = p.toNat / 4096 ∧ (fieldNNN w).toNat = p.toNat % 4096 := by
  have h : w &&& 0xFFFF#16 = w := BitVec.and_allOnes
  rw [h, ← encodeA_eq_iff, encodeA_fields]

/-! ### Reading the table row by row -/

/-- The number of the first row of a list that a word is on: `firstRow` is this for the whole table. -/
@[simp] theorem row_find?_cons (r : OpcodeRow) (rs : List OpcodeRow) (w : Word) :
    ((r :: rs).find? fun r => r.holds w).map (fun r => r.row) =
      if w &&& r.mask = r.pattern then some r.row else (rs.find? fun r => r.holds w).map fun r => r.row := by
  simp only [List.find?_cons, OpcodeRow.holds]
  split <;> simp_all

/-- The last row holds of every word (R84). -/
@[simp] theorem catchAll_holds (w : Word) : OpcodeRow.holds ⟨36, 0#16, 0#16⟩ w = true := by simp [OpcodeRow.holds]

/-! ### Each group against the table -/

theorem firstRow_eq_row_decodeGroup0 (hop : (opHi w).toNat = 0x0) : firstRow w = some (decodeGroup0 w).row := by
  unfold decodeGroup0
  split <;> simp_all [firstRow, opcodeTable, opcodeRowsA, opcodeRowsB, opcodeRowsC, Instr.row]

theorem firstRow_eq_row_decodeGroup5 (hop : (opHi w).toNat = 0x5) : firstRow w = some (decodeGroup5 w).row := by
  unfold decodeGroup5
  split <;> simp_all [firstRow, opcodeTable, opcodeRowsA, opcodeRowsB, opcodeRowsC, Instr.row]

theorem firstRow_eq_row_decodeGroup8 (hop : (opHi w).toNat = 0x8) : firstRow w = some (decodeGroup8 w).row := by
  unfold decodeGroup8
  split <;> simp_all [firstRow, opcodeTable, opcodeRowsA, opcodeRowsB, opcodeRowsC, Instr.row]

theorem firstRow_eq_row_decodeGroup9 (hop : (opHi w).toNat = 0x9) : firstRow w = some (decodeGroup9 w).row := by
  unfold decodeGroup9
  split <;> simp_all [firstRow, opcodeTable, opcodeRowsA, opcodeRowsB, opcodeRowsC, Instr.row]

theorem firstRow_eq_row_decodeGroupE (hop : (opHi w).toNat = 0xE) : firstRow w = some (decodeGroupE w).row := by
  unfold decodeGroupE
  split <;> simp_all [firstRow, opcodeTable, opcodeRowsA, opcodeRowsB, opcodeRowsC, Instr.row]

theorem firstRow_eq_row_decodeGroupF (hop : (opHi w).toNat = 0xF) : firstRow w = some (decodeGroupF w).row := by
  unfold decodeGroupF
  split <;> simp_all [firstRow, opcodeTable, opcodeRowsA, opcodeRowsB, opcodeRowsC, Instr.row]

/-- Settles O4, group by group: a group without a discriminator is one row of the table. -/
theorem decoderAgreesWithOpcodeTable : Obligations.DecoderAgreesWithOpcodeTable := by
  intro w
  unfold decodeWord
  split
  case h_1 => exact firstRow_eq_row_decodeGroup0 ‹_›
  case h_6 => exact firstRow_eq_row_decodeGroup5 ‹_›
  case h_9 => exact firstRow_eq_row_decodeGroup8 ‹_›
  case h_10 => exact firstRow_eq_row_decodeGroup9 ‹_›
  case h_15 => exact firstRow_eq_row_decodeGroupE ‹_›
  case h_16 =>
    have hlt := (opHi w).isLt
    have hop : (opHi w).toNat = 0xF := by grind
    exact firstRow_eq_row_decodeGroupF hop
  all_goals simp [firstRow, opcodeTable, opcodeRowsA, opcodeRowsB, opcodeRowsC, Instr.row, *]

end Sys2Proof

/-! # Control flow (R100 to R109)

Whether the halt check fires, the stack is full, or the stack has a top entry decides what happens; below, each
condition is put as the statements put it, with what the model answers under it. -/

namespace Sys2Proof.Machine

/-! ### The engine step and the halt bound (R100, R101) -/

theorem haltCheck_eq_false_iff (s : State) :
    haltCheck s = false ↔ s.pc.toNat < memSize ∧ s.pc.toNat < romStart + s.romSize + s.config.haltMargin.val := by
  rw [← Bool.not_eq_true, haltCheck_iff, not_or, Nat.not_le, Nat.not_le]

theorem engineStep_of_haltCheck {s : State} (hrun : s.run = .running) (hhalt : haltCheck s = true) :
    engineStep s = .next (halt .pcExhausted s) := by
  simp [engineStep, hrun, hhalt]

/-- Below the halt bound the engine runs the instruction of the two bytes at PC (R54, R100). -/
theorem engineStep_eq_exec {s : State} {i : Instr} (hrun : s.run = .running) (hpc : s.pc.toNat + 1 < 4096)
    (hbound : s.pc.toNat < 0x200 + s.romSize + s.config.haltMargin.val)
    (hdecode : decodeBytes [s.readByte s.pc.toNat, s.readByte (s.pc.toNat + 1)] = .ok (i, [])) :
    engineStep s = exec i s := by
  have hhalt : haltCheck s = false := (haltCheck_eq_false_iff s).mpr ⟨Nat.lt_of_succ_lt hpc, hbound⟩
  have hi : decodeWord (wordOfBytes (s.readByte s.pc.toNat) (s.readByte (s.pc.toNat + 1))) = i := by
    simpa [decodeBytes] using hdecode
  rw [engineStep_running s hrun hhalt (fetchWord_eq s hpc), hi]

theorem step_of_schedule_nil {s : State} (h : s.schedule = []) : step s = engineStep s := by
  simp [step, nextTransition, h]

theorem step_of_schedule_cons {s : State} {tr : Transition} {rest : List Transition} (h : s.schedule = tr :: rest) :
    step s = transition tr (s.setSchedule rest) := by
  simp [step, nextTransition, h]

/-- Settles O7: the schedule is no part of what the engine step reads, so its lemma applies with the rest of it too. -/
theorem stepRunsDecodedInstruction : Obligations.StepRunsDecodedInstruction := by
  intro s i hrun hpc hbound hdecode
  refine ⟨fun hnone => ?_, fun rest hdue => ?_⟩
  · exact (step_of_schedule_nil hnone).trans (engineStep_eq_exec hrun hpc hbound hdecode)
  · have hengine : engineStep (s.setSchedule rest) = exec i (s.setSchedule rest) :=
      engineStep_eq_exec hrun hpc hbound hdecode
    exact (step_of_schedule_cons hdue).trans hengine

/-- Settles O8. -/
theorem engineHaltsAtBound : Obligations.EngineHaltsAtBound :=
  fun s hrun hbound => ⟨_, engineStep_of_haltCheck hrun ((haltCheck_iff s).mpr hbound), rfl, changesOnly_update⟩

/-! ### Logged no-ops (R104, R109) -/

/-- The word of a legacy call is 0NNN. -/
theorem encode_sys (nnn : BitVec 12) : encode (.sys nnn) = nnn.setWidth 16 := by
  refine BitVec.eq_of_toNat_eq ?_
  rw [encode, encodeA, BitVec.toNat_append, BitVec.toNat_setWidth_of_le (by decide)]
  simp

theorem changesOnly_logAndAdvance (kind : LogKind) (op : Word) (s : State) :
    changesOnly [.pc, .trace] s (logAndAdvance kind op s) := changesOnly_update

theorem logAndAdvance_trace (kind : LogKind) (op : Word) (s : State) :
    (logAndAdvance kind op s).trace = s.trace ++ [.log kind s.pc op] := rfl

/-- Settles O23: both are the one logged no-op. -/
theorem legacyAndUnrecognisedWordsAreLoggedNoOps : Obligations.LegacyAndUnrecognisedWordsAreLoggedNoOps := by
  refine ⟨fun nnn s => ⟨_, rfl, rfl, ?_, changesOnly_logAndAdvance _ _ s⟩,
    fun w s => ⟨_, rfl, rfl, logAndAdvance_trace _ w s, changesOnly_logAndAdvance _ _ s⟩⟩
  rw [logAndAdvance_trace, encode_sys]

/-! ### Jumps (R105, R107) -/

/-- Settles O24. -/
theorem jumpSetsPc : Obligations.JumpSetsPc :=
  fun nnn _ => ⟨_, rfl, toNat_addressOf nnn, changesOnly_update⟩

/-- The register BNNN adds, by its number: the top nibble of NNN under `Q_JUMP_VX`, else 0. -/
theorem val_jumpRegister (c : Config) (nnn : BitVec 12) :
    (jumpRegister c nnn).val = if c.jumpVx then nnn.toNat / 256 else 0 := by
  have hnibble : nnn.toNat / 256 % 16 = nnn.toNat / 256 := by
    have := nnn.isLt
    omega
  cases hquirk : c.jumpVx
  · simp [jumpRegister, hquirk]
  · simp [jumpRegister, hquirk, Nat.shiftRight_eq_div_pow, hnibble]

/-- The sum of BNNN does not wrap (R107). -/
theorem toNat_jumpTarget (s : State) (nnn : BitVec 12) :
    (jumpTarget s nnn).toNat = nnn.toNat + (s.reg (jumpRegister s.config nnn)).toNat := by
  have hb := (s.reg (jumpRegister s.config nnn)).isLt
  have hn := nnn.isLt
  rw [jumpTarget, BitVec.toNat_add, toNat_addressOf, BitVec.toNat_setWidth_of_le (by decide)]
  omega

/-- Settles O25. -/
theorem jumpWithOffset : Obligations.JumpWithOffset := by
  intro nnn r s hr
  obtain rfl : r = jumpRegister s.config nnn := Fin.ext (hr.trans (val_jumpRegister s.config nnn).symm)
  exact ⟨_, rfl, toNat_jumpTarget s nnn, changesOnly_update⟩

/-! ### Calls and returns (R106, R108) -/

theorem stackFull_iff (s : State) : stackFull s = true ↔ s.config.stackDepth = some s.stack.length := by
  cases hdepth : s.config.stackDepth with
  | none => simp [stackFull, hdepth]
  | some d => simp [stackFull, hdepth, eq_comm (a := d)]

/-- The stack has room when it is unbounded or not at its bound. -/
theorem stackFull_eq_false_iff (s : State) :
    stackFull s = false ↔ ∀ d, s.config.stackDepth = some d → s.stack.length ≠ d := by
  rw [← Bool.not_eq_true, stackFull_iff]
  exact ⟨fun h d hd hlen => h (hlen ▸ hd), fun h hd => h _ hd rfl⟩

theorem execCall_of_room {nnn : BitVec 12} {s : State} (h : stackFull s = false) :
    execCall nnn s = .next ((push (s.pc + 2) s).setPc (addressOf nnn)) := by
  simp [execCall, h]

theorem execCall_of_full {nnn : BitVec 12} {s : State} (h : stackFull s = true) :
    execCall nnn s = .next (s.setRun (.fault .stackOverflow)) := by
  simp [execCall, h, raiseFault]

theorem execRet_of_empty {s : State} (h : s.stack = []) :
    execRet s = .next (s.setRun (.fault .stackUnderflow)) := by
  simp [execRet, h, raiseFault]

theorem execRet_of_append {s : State} {below : List Word} {top : Word} (h : s.stack = below ++ [top]) :
    execRet s = .next ((s.setStack below).setPc top) := by
  simp [execRet, h]

/-- Settles O26. -/
theorem callPushesReturnAddress : Obligations.CallPushesReturnAddress :=
  fun nnn s hroom => ⟨_, execCall_of_room ((stackFull_eq_false_iff s).mpr hroom), rfl, toNat_addressOf nnn,
    changesOnly_update⟩

/-- Settles O27. -/
theorem returnPopsTop : Obligations.ReturnPopsTop :=
  fun _ _ _ hstack => ⟨_, execRet_of_append hstack, rfl, rfl, changesOnly_update⟩

/-- Settles O28. -/
theorem stackFaults : Obligations.StackFaults := by
  refine ⟨fun s hempty => ⟨_, execRet_of_empty hempty, rfl, changesOnly_update⟩, fun nnn d s hdepth hlen => ?_⟩
  have hfull : stackFull s = true := (stackFull_iff s).mpr (hlen ▸ hdepth)
  exact ⟨_, execCall_of_full hfull, rfl, changesOnly_update⟩

/-- Settles O29: the call leaves the return address on top of the old stack, and the return pops it. -/
theorem callThenReturn : Obligations.CallThenReturn := by
  intro nnn s t u hroom hcall hstack
  obtain ⟨t', hcall', hpushed, -⟩ := callPushesReturnAddress nnn s hroom
  obtain rfl : t = t' := Host.Outcome.next.inj (hcall.symm.trans hcall')
  obtain ⟨v, hret, hpc, hpopped, -⟩ := returnPopsTop s.stack (s.pc + 2) u (hstack.trans hpushed)
  exact ⟨v, hret, hpc, hpopped⟩

end Sys2Proof.Machine

/-! # Conditional skips (R120 to R126)

All six are `skipOn` of their condition, so one lemma gives the outcome for a condition put as a proposition; each
instruction then owes only that its Boolean test decides the rule's condition. -/

namespace Sys2Proof.Machine

/-- A skip on a test that decides `p` (R120). -/
theorem skipOn_of_iff {s : State} {c : Bool} {p : Prop} [Decidable p] (hskip : s.skip = false) (hc : c = true ↔ p) :
    ∃ t, skipOn c s = .next t ∧ t.pc = s.pc + (if p then 4 else 2) ∧ changesOnly [.pc] s t := by
  refine ⟨_, skipOn_eq s c hskip, ?_, changesOnly_update⟩
  rw [setPc_pc, apply_ite (s.pc + ·)]
  exact if_congr hc rfl rfl

/-- Settles O30. -/
theorem valueSkips : Obligations.ValueSkips :=
  fun _ _ _ _ hskip => ⟨skipOn_of_iff hskip beq_iff_eq, skipOn_of_iff hskip bne_iff_ne,
    skipOn_of_iff hskip beq_iff_eq, skipOn_of_iff hskip bne_iff_ne⟩

/-- A value above 15 names no key (D17). -/
theorem keyHeld_iff (s : State) (x : RegIdx) :
    keyHeld s x = true ↔ (s.reg x).toNat ≤ 15 ∧ s.keys.getLsbD (s.reg x).toNat = true := by
  simp [keyHeld]

/-- Settles O31: EXA1 is the skip on the negated condition of EX9E. -/
theorem keySkips : Obligations.KeySkips := by
  intro x s hskip
  have hnot : (!keyHeld s x) = true ↔ ¬((s.reg x).toNat ≤ 15 ∧ s.keys.getLsbD (s.reg x).toNat = true) := by
    rw [← keyHeld_iff, Bool.not_eq_true', Bool.not_eq_true]
  have hsknp := skipOn_of_iff hskip hnot
  rw [ite_not] at hsknp
  exact ⟨skipOn_of_iff hskip (keyHeld_iff s x), hsknp⟩

end Sys2Proof.Machine

/-! # Load, arithmetic, logic, shift, random (R140 to R153)

Every instruction of the family is one of three writes: a result, a result and a flag, or a bitwise result after the
pre-clear of VF. One lemma for each write gives the outcome with its frame; an instruction then owes only the value of
its result and of its flag as numbers. -/

namespace Sys2Proof.Machine

/-! ### The writes (R140) -/

/-- A result with no flag. -/
theorem writeAndAdvance_outcome (x : RegIdx) (b : Byte) (s : State) :
    ∃ t, writeAndAdvance x b s = .next t ∧ t.reg x = b ∧ (∀ r, r ≠ x → t.reg r = s.reg r) ∧ t.pc = s.pc + 2 ∧
      changesOnly [.v, .pc] s t :=
  ⟨_, rfl, reg_setReg_same s x b, fun r => reg_setReg_other s x r b, rfl, changesOnly_update⟩

/-- A result and a flag, VF last: for X = 15 the flag is what stays. -/
theorem writeFlagAndAdvance_outcome (x : RegIdx) (b : Byte) (f : Bool) (s : State) :
    ∃ t, writeFlagAndAdvance x b f s = .next t ∧ (x ≠ 15 → t.reg x = b) ∧ t.reg 15 = flagByte f ∧
      (∀ r, r ≠ x → r ≠ 15 → t.reg r = s.reg r) ∧ t.pc = s.pc + 2 ∧ changesOnly [.v, .pc] s t :=
  ⟨_, rfl, fun hx => (writeWithFlag_reg s x x b f hx).trans (if_pos rfl), writeWithFlag_vf s x b f,
    fun r hr hvf => (writeWithFlag_reg s x r b f hvf).trans (if_neg hr), rfl, changesOnly_update⟩

/-- The registers after the pre-clear of VF (R144). -/
theorem reg_clearFlagForLogic (s : State) (r : RegIdx) :
    (clearFlagForLogic s).reg r = if s.config.vfReset = true ∧ r = 15 then 0 else s.reg r := by
  unfold clearFlagForLogic
  split
  case isTrue hreset => simp [reg_setReg, hreset, vf]
  case isFalse hkeep => simp [hkeep]

theorem clearFlagForLogic_pc (s : State) : (clearFlagForLogic s).pc = s.pc := by
  unfold clearFlagForLogic
  split <;> rfl

/-- A bitwise operation, bit by bit as `g` acts, on the registers as they are after the pre-clear of VF. -/
theorem logicOp_outcome {f : Byte → Byte → Byte} {g : Bool → Bool → Bool} {s : State} {before : RegIdx → Byte}
    (hbits : ∀ a b k, (f a b).getLsbD k = g (a.getLsbD k) (b.getLsbD k))
    (hbefore : ∀ r, before r = if s.config.vfReset = true ∧ r = 15 then 0 else s.reg r) (x y : RegIdx) :
    ∃ t, logicOp f x y s = .next t ∧
      (∀ k < 8, (t.reg x).getLsbD k = g ((before x).getLsbD k) ((before y).getLsbD k)) ∧
      (∀ r, r ≠ x → t.reg r = before r) ∧ t.pc = s.pc + 2 ∧ changesOnly [.v, .pc] s t := by
  obtain rfl : before = (clearFlagForLogic s).reg :=
    funext fun r => (hbefore r).trans (reg_clearFlagForLogic s r).symm
  obtain ⟨t, ht, hx, hframe, hpc, hchanges⟩ := writeAndAdvance_outcome x
    (f ((clearFlagForLogic s).reg x) ((clearFlagForLogic s).reg y)) (clearFlagForLogic s)
  exact ⟨t, ht, fun k _ => hx ▸ hbits _ _ k, hframe, clearFlagForLogic_pc s ▸ hpc,
    (changesOnly_clearFlagForLogic s).trans hchanges⟩

/-! ### Results and flags as numbers -/

/-- The difference modulo 256 of two bytes, over the integers (R148, R151). -/
theorem toNat_sub_eq_emod (a b : Byte) : ((a - b).toNat : Int) = (a.toNat - b.toNat : Int) % 256 := by
  have ha := a.isLt
  have hb := b.isLt
  rw [BitVec.toNat_sub]
  omega

theorem toNat_shiftRight_one (a : Byte) : (a >>> 1).toNat = a.toNat / 2 :=
  (BitVec.toNat_ushiftRight a 1).trans (Nat.shiftRight_one _)

theorem toNat_shiftLeft_one (a : Byte) : (a <<< 1).toNat = 2 * a.toNat % 256 := by
  rw [BitVec.toNat_shiftLeft, Nat.shiftLeft_eq, Nat.mul_comm]

/-- The flag of a comparison: the carry of R147 and the not-borrow of R148 and R151. -/
theorem flagByte_decide (p : Prop) [Decidable p] : flagByte (decide p) = if p then 1 else 0 := by
  simp [flagByte]

/-- The flag of a bit: what R150 and R152 shift out. -/
theorem toNat_flagByte_getLsbD (a : Byte) (k : Nat) : (flagByte (a.getLsbD k)).toNat = a.toNat / 2 ^ k % 2 := by
  have htoNat (b : Bool) : (flagByte b).toNat = b.toNat := by cases b <;> rfl
  rw [htoNat, BitVec.getLsbD, Nat.toNat_testBit]

theorem toNat_flagByte_shiftedOutLow (a : Byte) : (flagByte (shiftedOutLow a)).toNat = a.toNat % 2 := by
  rw [shiftedOutLow, toNat_flagByte_getLsbD, Nat.pow_zero, Nat.div_one]

theorem toNat_flagByte_shiftedOutHigh (a : Byte) : (flagByte (shiftedOutHigh a)).toNat = a.toNat / 128 := by
  have htop : a.toNat / 128 < 2 := Nat.div_lt_of_lt_mul a.isLt
  exact (toNat_flagByte_getLsbD a 7).trans (Nat.mod_eq_of_lt htop)

/-! ### The instructions -/

/-- Settles O32. -/
theorem loadsAndAddImmediate : Obligations.LoadsAndAddImmediate := by
  intro x y nn s
  obtain ⟨t, ht, hx, hrest⟩ := writeAndAdvance_outcome x (s.reg x + nn) s
  exact ⟨writeAndAdvance_outcome x nn s, ⟨t, ht, hx ▸ BitVec.toNat_add _ _, hrest⟩,
    writeAndAdvance_outcome x (s.reg y) s⟩

/-- Settles O33. -/
theorem logicOperations : Obligations.LogicOperations :=
  fun x y _ _ hbefore => ⟨logicOp_outcome (fun _ _ _ => BitVec.getLsbD_or) hbefore x y,
    logicOp_outcome (fun _ _ _ => BitVec.getLsbD_and) hbefore x y,
    logicOp_outcome (fun _ _ _ => BitVec.getLsbD_xor) hbefore x y⟩

/-- Settles O34. -/
theorem addSetsCarry : Obligations.AddSetsCarry := by
  intro x y s
  obtain ⟨t, ht, hx, hflag, hrest⟩ :=
    writeFlagAndAdvance_outcome x (s.reg x + s.reg y) (carryOut (s.reg x) (s.reg y)) s
  exact ⟨t, ht, fun hne => hx hne ▸ BitVec.toNat_add _ _, hflag.trans (flagByte_decide _), hrest⟩

/-- A subtraction of one register from another: the difference and the not-borrow (R149). -/
theorem subtract_outcome (x m n : RegIdx) (s : State) :
    ∃ t, writeFlagAndAdvance x (s.reg m - s.reg n) (noBorrow (s.reg m) (s.reg n)) s = .next t ∧
      (x ≠ 15 → ((t.reg x).toNat : Int) = ((s.reg m).toNat - (s.reg n).toNat : Int) % 256) ∧
      t.reg 15 = (if (s.reg m).toNat ≥ (s.reg n).toNat then 1 else 0) ∧
      (∀ r, r ≠ x → r ≠ 15 → t.reg r = s.reg r) ∧ t.pc = s.pc + 2 ∧ changesOnly [.v, .pc] s t := by
  obtain ⟨t, ht, hx, hflag, hrest⟩ :=
    writeFlagAndAdvance_outcome x (s.reg m - s.reg n) (noBorrow (s.reg m) (s.reg n)) s
  exact ⟨t, ht, fun hne => hx hne ▸ toNat_sub_eq_emod _ _, hflag.trans (flagByte_decide _), hrest⟩

/-- Settles O35: 8XY7 is 8XY5 with minuend and subtrahend exchanged. -/
theorem subtractionsSetNotBorrow : Obligations.SubtractionsSetNotBorrow :=
  fun x y s => ⟨subtract_outcome x x y s, subtract_outcome x y x s⟩

/-- Settles O36. -/
theorem shiftsSetShiftedOutBit : Obligations.ShiftsSetShiftedOutBit := by
  rintro x y s _ rfl
  constructor
  · obtain ⟨t, ht, hx, hflag, hrest⟩ := writeFlagAndAdvance_outcome x (s.reg (shiftSource s.config x y) >>> 1)
      (shiftedOutLow (s.reg (shiftSource s.config x y))) s
    exact ⟨t, ht, fun hne => hx hne ▸ toNat_shiftRight_one _, hflag ▸ toNat_flagByte_shiftedOutLow _, hrest⟩
  · obtain ⟨t, ht, hx, hflag, hrest⟩ := writeFlagAndAdvance_outcome x (s.reg (shiftSource s.config x y) <<< 1)
      (shiftedOutHigh (s.reg (shiftSource s.config x y))) s
    exact ⟨t, ht, fun hne => hx hne ▸ toNat_shiftLeft_one _, hflag ▸ toNat_flagByte_shiftedOutHigh _, hrest⟩

/-- Settles O37: the write of the masked draw, after the draw is counted. -/
theorem randomIsMaskedDraw : Obligations.RandomIsMaskedDraw := by
  intro x nn s
  obtain ⟨t, ht, hx, hframe, hpc, hchanges⟩ := writeAndAdvance_outcome x (Config.draw s.draws &&& nn) s.countDraw
  have hdraws : t.draws = s.draws + 1 := hchanges .draws (by decide)
  have hcount : changesOnly [.v, .pc, .draws] s s.countDraw := changesOnly_update
  exact ⟨t, ht, hx, hdraws, hframe, hpc, hcount.trans (hchanges.mono (by simp))⟩

end Sys2Proof.Machine

/-! # The index register and memory (R170 to R178)

ANNN, FX1E and FX29 are one write of I. FX33 and FX55 are one store from I on, and FX65 is one load: each runs only
where its range is in memory, and what it leaves is read back through the lemmas of the store and of the load. -/

namespace Sys2Proof.Machine

/-! ### Writes of I (R171, R172, R173) -/

theorem setI_outcome (s : State) {w : Word} {n : Nat} (hw : w.toNat = n) :
    ∃ t, (.next (advance (s.setI w)) : Answer) = .next t ∧ t.i.toNat = n ∧ t.pc = s.pc + 2 ∧
      changesOnly [.i, .pc] s t :=
  ⟨_, rfl, hw, rfl, changesOnly_update⟩

theorem toNat_indexPlus (s : State) (b : Byte) : (indexPlus s b).toNat = (s.i.toNat + b.toNat) % 65536 := by
  rw [indexPlus, BitVec.toNat_add, BitVec.toNat_setWidth_of_le (by decide)]

/-- The address of a glyph does not wrap, even for a V[X] that is no digit (D8). -/
theorem toNat_glyphAddress (b : Byte) : (glyphAddress b).toNat = 0x050 + 5 * b.toNat := by
  have hb := b.isLt
  rw [glyphAddress, fontBase, BitVec.toNat_ofNat]
  omega

/-- Settles O38. -/
theorem indexLoadAndAdd : Obligations.IndexLoadAndAdd :=
  ⟨fun nnn s => setI_outcome s (toNat_addressOf nnn), fun x s => setI_outcome s (toNat_indexPlus s (s.reg x))⟩

/-- Settles O39. -/
theorem glyphAddressInIndex : Obligations.GlyphAddressInIndex :=
  fun x s => setI_outcome s (toNat_glyphAddress (s.reg x))

/-! ### FX33 (R174) -/

/-- A stored byte is read back at its place. -/
theorem storeBytes_readByte_add {s : State} {a k : Nat} {bs : List Byte} (h : Memory.wf s.mem = true)
    (ha : a + bs.length ≤ memSize) (hk : k < bs.length) : (s.storeBytes a bs).readByte (a + k) = bs.getD k 0 := by
  rw [storeBytes_readByte h ha, if_pos (by omega), Nat.add_sub_cancel_left]

/-- The three digits as numbers: each is at most 9, so none is cut to a byte. -/
theorem map_toNat_bcdDigits (b : Byte) :
    (bcdDigits b).map BitVec.toNat = [b.toNat / 100, b.toNat / 10 % 10, b.toNat % 10] := by
  have hb := b.isLt
  have hbyte {d : Nat} (hd : d < 10) : (BitVec.ofNat 8 d).toNat = d := Nat.mod_eq_of_lt (by omega)
  simp only [bcdDigits, List.map_cons, List.map_nil]
  rw [hbyte (by omega), hbyte (by omega), hbyte (by omega)]

theorem exec_ldB_in {x : RegIdx} {s : State} (hrange : dataAddress s + 3 ≤ memSize) :
    exec (.ldB x) s = .next (advance (s.storeBytes (dataAddress s) (bcdDigits (s.reg x)))) :=
  withRange_in _ _ _ ((inMemory_iff _ _).mpr (.inr hrange))

/-- Settles O40. -/
theorem bcdStore : Obligations.BcdStore := by
  intro x s hwf hrange
  have hfits : dataAddress s + (bcdDigits (s.reg x)).length ≤ memSize := hrange
  have hdigit (k : Nat) (hk : k < 3) :
      ((s.storeBytes (dataAddress s) (bcdDigits (s.reg x))).readByte (dataAddress s + k)).toNat =
        [(s.reg x).toNat / 100, (s.reg x).toNat / 10 % 10, (s.reg x).toNat % 10].getD k 0 := by
    rw [storeBytes_readByte_add hwf hfits hk, ← map_toNat_bcdDigits]
    exact (List.getD_map _ _ BitVec.toNat).symm
  exact ⟨_, exec_ldB_in hrange, hdigit 0 (by decide), hdigit 1 (by decide), hdigit 2 (by decide),
    storeBytes_readByte_outside hwf hfits, rfl, changesOnly_update⟩

/-! ### FX55 and FX65 (R175, R176, R177) -/

/-- I moves past the bytes used only under `Q_INC_I` (D13). -/
theorem toNat_indexAfter (s : State) (x : RegIdx) :
    (indexAfter s x).toNat = if s.config.incI then (s.i.toNat + x.val + 1) % 65536 else s.i.toNat := by
  unfold indexAfter
  split
  · rw [BitVec.toNat_add, BitVec.toNat_ofNat, Nat.add_mod_mod, regCount, Nat.add_assoc]
  · rfl

/-- Settles O41: the bytes stored are those of `readByte_of_exec_ldMemVx`. -/
theorem storeRegisters : Obligations.StoreRegisters := by
  intro x s hwf hrange
  have hfits : dataAddress s + (firstRegs s x).length ≤ memSize := by
    rw [length_firstRegs]
    exact hrange
  have hexec := exec_ldMemVx_in hrange
  refine ⟨_, hexec, fun r hr => readByte_of_exec_ldMemVx hwf hrange hexec hr, fun a hout => ?_, toNat_indexAfter s x,
    rfl, changesOnly_update⟩
  refine storeBytes_readByte_outside hwf hfits a ?_
  rw [length_firstRegs]
  exact hout

/-- FX65 whose range is in memory (R177). -/
theorem exec_ldVxMem_in {x : RegIdx} {s : State} (hrange : dataAddress s + x.val < memSize) :
    exec (.ldVxMem x) s = .next (advance ((s.setRegs (loadedRegs s x)).setI (indexAfter s x))) :=
  withRange_in _ _ _ ((inMemory_iff _ _).mpr (.inr hrange))

/-- Settles O42. -/
theorem loadRegisters : Obligations.LoadRegisters :=
  fun x s hrange => ⟨_, exec_ldVxMem_in hrange, fun r hr => (getElem_loadedRegs s x r).trans (if_pos hr),
    fun _ hr => reg_load_above s _ hr, toNat_indexAfter s x, rfl, changesOnly_update⟩

/-- Settles O44: the load reads the addresses of the store, and those hold the registers stored. -/
theorem storeThenLoadRestores : Obligations.StoreThenLoadRestores := by
  intro x s t u hwf hrange hstore hi hbytes
  have haddr : dataAddress u = dataAddress s := congrArg BitVec.toNat hi
  obtain ⟨v, hload, hloaded, habove, -⟩ := loadRegisters x u (haddr ▸ hrange)
  refine ⟨v, hload, fun r hr => ?_, habove⟩
  calc v.reg r = u.readByte (dataAddress s + r.val) := haddr ▸ hloaded r hr
    _ = t.readByte (dataAddress s + r.val) := hbytes r.val hr
    _ = s.reg r := readByte_of_exec_ldMemVx hwf hrange hstore hr

end Sys2Proof.Machine

/-! # Display (R191 to R198)

A sprite pixel's target is `landsOn` made a partial function, so the list the draw folds over holds exactly the pixels
that `toggles` names. A draw is at most 8 columns by 15 rows, too few to wrap onto itself, so that list has no repeats
and the laws of the fold over distinct pixels give what a draw does. -/

namespace Sys2Proof.Machine

/-- Settles O46. -/
theorem clearScreen : Obligations.ClearScreen :=
  fun _ => ⟨_, rfl, pixelAt_blankScreen, rfl, rfl, changesOnly_update⟩

/-! ### Where a sprite pixel lands (R191) -/

/-- The target of a sprite pixel is the pixel it lands on; on the screen wrapping is the identity. -/
theorem spriteTarget_eq_some_iff (clip : Bool) (x0 y0 row col : Nat) (p : Fin 64 × Fin 32) :
    spriteTarget clip (x0 + col) (y0 + row) = some p ↔ landsOn clip x0 y0 row col p.1 p.2 := by
  obtain ⟨⟨px, hpx⟩, ⟨py, hpy⟩⟩ := p
  unfold spriteTarget landsOn
  split
  case isTrue h =>
    obtain ⟨hx, hy⟩ := h
    simp [Nat.mod_eq_of_lt hx, Nat.mod_eq_of_lt hy, eq_comm]
  case isFalse h =>
    cases clip
    · simp [eq_comm]
    · have hoff : ¬(px = x0 + col ∧ py = y0 + row) := by omega
      simp [hoff]

/-- Clipped or wrapped, a pixel is where it would be wrapped. -/
theorem landsOn.wrapped {clip : Bool} {x0 y0 row col : Nat} {px : Fin 64} {py : Fin 32}
    (h : landsOn clip x0 y0 row col px py) : px.val = (x0 + col) % 64 ∧ py.val = (y0 + row) % 32 := by
  cases clip with
  | false => exact h
  | true =>
    obtain ⟨hx, hy⟩ : px.val = x0 + col ∧ py.val = y0 + row := h
    exact ⟨by omega, by omega⟩

theorem mem_spriteTargets_iff (clip : Bool) (x0 y0 : Nat) (bs : List Byte) (p : Fin 64 × Fin 32) :
    p ∈ spriteTargets clip x0 y0 bs ↔ ∃ row, ∃ h : row < bs.length, ∃ col < 8,
      bs[row].getLsbD (7 - col) = true ∧ landsOn clip x0 y0 row col p.1 p.2 := by
  simp only [mem_spriteTargets, mem_rowTargets, spriteTarget_eq_some_iff]

/-! ### No pixel twice (R194) -/

/-- Two columns of one row are less than 64 apart. -/
theorem nodup_rowTargets (clip : Bool) (x0 py : Nat) (b : Byte) : (rowTargets clip x0 py b).Nodup := by
  refine List.pairwise_filterMap.mpr (List.nodup_range.imp_of_mem ?_)
  intro col col' hcol hcol' hne p hp p' hp' hpp
  subst hpp
  obtain ⟨-, hp⟩ := Option.ite_none_right_eq_some.mp hp
  obtain ⟨-, hp'⟩ := Option.ite_none_right_eq_some.mp hp'
  obtain ⟨hx, -⟩ := ((spriteTarget_eq_some_iff clip x0 py 0 col p).mp hp).wrapped
  obtain ⟨hx', -⟩ := ((spriteTarget_eq_some_iff clip x0 py 0 col' p).mp hp').wrapped
  rw [List.mem_range] at hcol hcol'
  omega

/-- The rows of a sprite no taller than the screen are less than 32 apart. -/
theorem nodup_spriteTargets (clip : Bool) (x0 y0 : Nat) {bs : List Byte} (h : bs.length ≤ 32) :
    (spriteTargets clip x0 y0 bs).Nodup := by
  induction bs generalizing y0 with
  | nil => exact List.nodup_nil
  | cons b bs ih =>
    rw [List.length_cons] at h
    refine List.nodup_append'.mpr ⟨nodup_rowTargets clip x0 y0 b, ih (y0 + 1) (by omega), fun p hfirst hlater => ?_⟩
    obtain ⟨col, -, -, hp⟩ := (mem_rowTargets clip x0 y0 b p).mp hfirst
    obtain ⟨-, hy⟩ := ((spriteTarget_eq_some_iff clip x0 y0 0 col p).mp hp).wrapped
    obtain ⟨row, hrow, col', -, -, hp'⟩ := (mem_spriteTargets_iff clip x0 (y0 + 1) bs p).mp hlater
    obtain ⟨-, hy'⟩ := hp'.wrapped
    omega

/-- Settles O48: a sprite has at most 15 rows. -/
theorem noPixelTouchedTwice : Obligations.NoPixelTouchedTwice := by
  intro x y n s
  have hrows : (s.loadBytes (dataAddress s) n.val).length ≤ 32 :=
    (length_readList ..).trans_le (by omega)
  exact nodup_spriteTargets _ _ _ hrows

/-- The pixels of a draw are those a sprite bit of 1 lands on (R193). -/
theorem mem_drawTargets_iff (x y : RegIdx) (n : Fin 16) (s : State) (px : Fin 64) (py : Fin 32) :
    (px, py) ∈ drawTargets x y n s ↔ toggles x y n s px py := by
  simp [drawTargets, mem_spriteTargets_iff, State.loadBytes, getElem_readList, toggles, spriteBit, State.readByte]

/-! ### What a draw does (R194, R195, R197) -/

theorem exec_drw_in {x y : RegIdx} {n : Fin 16} {s : State} (hrange : n.val = 0 ∨ dataAddress s + n.val ≤ memSize) :
    exec (.drw x y n) s = .next (advance (finishDraw (drawPixels s.fb (drawTargets x y n s)) s)) :=
  withRange_in _ _ _ ((inMemory_iff _ _).mpr hrange)

theorem reg_finishDraw_vf (s : State) (d : Draw) : (advance (finishDraw d s)).reg 15 = flagByte d.collision :=
  reg_setReg_same (s.setFb d.fb) vf _

theorem flagByte_eq_one_iff (b : Bool) : flagByte b = 1 ↔ b = true := by
  cases b <;> decide

section
variable (x y : RegIdx) (n : Fin 16) (s : State)

theorem pixelAt_draw_of_mem {px : Fin 64} {py : Fin 32} (h : (px, py) ∈ drawTargets x y n s) :
    pixelAt (drawPixels s.fb (drawTargets x y n s)).fb px py = !pixelAt s.fb px py := by
  rw [pixelAt_drawPixels (noPixelTouchedTwice x y n s), decide_eq_true h, Bool.xor_true]

theorem pixelAt_draw_of_not_mem {px : Fin 64} {py : Fin 32} (h : (px, py) ∉ drawTargets x y n s) :
    pixelAt (drawPixels s.fb (drawTargets x y n s)).fb px py = pixelAt s.fb px py := by
  rw [pixelAt_drawPixels (noPixelTouchedTwice x y n s), decide_eq_false h, Bool.xor_false]

theorem collision_draw_iff : (drawPixels s.fb (drawTargets x y n s)).collision = true ↔
    ∃ px py, toggles x y n s px py ∧ pixelAt s.fb px py = true := by
  rw [collision_drawPixels (noPixelTouchedTwice x y n s), List.any_eq_true, Prod.exists]
  simp only [mem_drawTargets_iff]

/-- A pixel's event reports the value the finished draw leaves, since nothing touches it again. -/
theorem events_draw : (drawPixels s.fb (drawTargets x y n s)).events =
    (drawTargets x y n s).map fun p =>
      .setPixel p.1 p.2 (pixelAt (drawPixels s.fb (drawTargets x y n s)).fb p.1 p.2) := by
  rw [events_drawPixels (noPixelTouchedTwice x y n s)]
  exact List.map_congr_left fun p hp => by rw [pixelAt_draw_of_mem x y n s hp]

end

/-- Settles O47. -/
theorem drawTogglesSpritePixels : Obligations.DrawTogglesSpritePixels := by
  intro x y n s hrange
  refine ⟨_, exec_drw_in hrange, fun px py h => ?on, fun px py h => ?off, ?flag, ?collision,
    fun r => reg_finishDraw_other s _, rfl, changesOnly_update⟩
  case on => exact pixelAt_draw_of_mem x y n s ((mem_drawTargets_iff ..).mpr h)
  case off => exact pixelAt_draw_of_not_mem x y n s (mt (mem_drawTargets_iff ..).mp h)
  case flag =>
    rw [reg_finishDraw_vf]
    exact (Bool.eq_false_or_eq_true _).symm.imp (congrArg flagByte) (congrArg flagByte)
  case collision => rw [reg_finishDraw_vf, flagByte_eq_one_iff, collision_draw_iff]

/-- Settles O49. -/
theorem drawEmitsOneEventPerPixel : Obligations.DrawEmitsOneEventPerPixel := by
  intro x y n s hrange
  refine ⟨_, exec_drw_in hrange, ?_⟩
  calc s.trace ++ ((drawPixels s.fb (drawTargets x y n s)).events ++ [.present])
    _ = s.trace ++ (drawPixels s.fb (drawTargets x y n s)).events ++ [.present] := (List.append_assoc ..).symm
    _ = _ := by rw [events_draw]; rfl

/-! ### The same sprite again (R198) -/

/-- DXYN toggles the same pixels wherever its operands are the same. -/
theorem toggles_congr {x y : RegIdx} {n : Fin 16} {s u : State} (hx : u.reg x = s.reg x) (hy : u.reg y = s.reg y)
    (hi : u.i = s.i) (hconfig : u.config = s.config)
    (hbytes : ∀ k < n.val, u.readByte (dataAddress s + k) = s.readByte (dataAddress s + k)) (px : Fin 64)
    (py : Fin 32) : toggles x y n u px py ↔ toggles x y n s px py := by
  have haddr : dataAddress u = dataAddress s := congrArg BitVec.toNat hi
  refine exists_congr fun row => and_congr_right fun hrow => ?_
  simp only [spriteBit, haddr, hbytes row hrow, hx, hy, hconfig]

/-- Settles O50: the second draw toggles the pixels of the first, and one that it turns off is one that the first
turned on. -/
theorem drawTwiceRestoresScreen : Obligations.DrawTwiceRestoresScreen := by
  intro x y n s t u hrange ht hfb hx hy hi hconfig hbytes
  have hsame := toggles_congr hx hy hi hconfig hbytes
  have haddr : dataAddress u = dataAddress s := congrArg BitVec.toNat hi
  obtain ⟨t', ht', hon, hoff, -⟩ := drawTogglesSpritePixels x y n s hrange
  obtain rfl := Host.Outcome.next.inj (ht.symm.trans ht')
  obtain ⟨v, hv, hon', hoff', -, hflag, -⟩ := drawTogglesSpritePixels x y n u (haddr ▸ hrange)
  rw [hfb] at hon' hoff' hflag
  refine ⟨v, hv, fun px py => ?_, hflag.trans ?_⟩
  · by_cases h : toggles x y n s px py
    · rw [hon' px py ((hsame px py).mpr h), hon px py h, Bool.not_not]
    · rw [hoff' px py (mt (hsame px py).mp h), hoff px py h]
  · refine exists₂_congr fun px py => (and_congr_left' (hsame px py)).trans (and_congr_right fun h => ?_)
    rw [hon px py h, Bool.not_eq_true']

end Sys2Proof.Machine

/-! # Timers and keypad (R201 to R213), and the quit (R214, R226)

The events act only while RUN is Running or AwaitingKey. Below, each of them has one equation for each condition that
decides what it does: whether the key is held, and whether a wait is pending with this key latched. -/

namespace Sys2Proof.Machine

/-! ### Where nothing happens (R206, R222) -/

theorem engineStep_of_not_running {s : State} (h : s.run ≠ .running) : engineStep s = .next s := by
  unfold engineStep
  split
  case h_1 hrun => exact absurd hrun h
  all_goals rfl

theorem active_eq_false_iff (s : State) :
    s.active = false ↔ (∃ c, s.run = .halted c) ∨ ∃ c, s.run = .fault c := by
  cases h : s.run <;> simp [State.active, h]

/-- No agent acts once the run has ended (R222). -/
theorem transition_of_terminal {s : State} (h : s.active = false) (tr : Transition) : transition tr s = .next s := by
  cases tr with
  | engineStep =>
    refine engineStep_of_not_running fun hrun => ?_
    rw [(active_iff s).mpr (.inl hrun)] at h
    cases h
  | timerTick => exact congrArg _ (timerTick_terminal s h)
  | keyDown k => simp [transition, keyDown, h]
  | keyUp k => simp [transition, keyUp, h]
  | quit => simp [transition, quit, h]

/-- Settles O10. -/
theorem idleAndTerminalStatesStay : Obligations.IdleAndTerminalStatesStay :=
  ⟨fun _ _ _ hwait => engineStep_of_not_running fun hrun => (nomatch hwait.symm.trans hrun),
    fun s tr hend => transition_of_terminal ((active_eq_false_iff s).mpr hend) tr⟩

/-! ### The instructions (R201 to R205) -/

/-- Settles O51. -/
theorem timerRegisterMoves : Obligations.TimerRegisterMoves :=
  fun x s => ⟨writeAndAdvance_outcome x s.dt s, ⟨_, rfl, rfl, rfl, changesOnly_update⟩,
    ⟨_, rfl, rfl, rfl, changesOnly_update⟩⟩

/-- Settles O52. -/
theorem keyWaitBegins : Obligations.KeyWaitBegins := fun _ _ => ⟨_, rfl, rfl, changesOnly_update⟩

/-! ### Ticks (R207, R208, R213) -/

/-- Settles O53. -/
theorem timerTickCountsDown : Obligations.TimerTickCountsDown := by
  intro s hrun
  refine ⟨timerTick s, rfl, ?_⟩
  rw [timerTick_active s ((active_iff s).mpr hrun)]
  exact ⟨countDown_toNat s.dt, countDown_toNat s.st, rfl, rfl, changesOnly_update⟩

/-- A run of ticks, by induction on their number: each tick leaves RUN as it was, so the next one is enabled too. SND is
what the last tick made it. -/
theorem runTransitions_timerTicks (n : Nat) {s : State}
    (hrun : s.run = .running ∨ ∃ x latch, s.run = .awaitingKey x latch) :
    ∃ t, runTransitions (List.replicate n .timerTick) s = .next t ∧ t.dt.toNat = s.dt.toNat - n ∧
      t.st.toNat = s.st.toNat - n ∧ t.snd = (if n = 0 then s.snd else decide (0 < s.st.toNat - n)) ∧
      changesOnly [.dt, .st, .snd, .trace] s t := by
  induction n generalizing s with
  | zero => exact ⟨s, rfl, rfl, rfl, rfl, .refl _ s⟩
  | succ n ih =>
    obtain ⟨u, hu, hdt, hst, hsnd, -, hchanges⟩ := timerTickCountsDown s hrun
    have hrun' : u.run = s.run := hchanges .run (by decide)
    obtain ⟨t, ht, hdt', hst', hsnd', hchanges'⟩ := ih (hrun'.symm ▸ hrun)
    refine ⟨t, ?_, by omega, by omega, ?_, hchanges.trans hchanges'⟩
    · simp only [List.replicate_succ, runTransitions, hu, ht]
    · rw [hsnd', hsnd, hst, Nat.sub_sub, Nat.add_comm 1 n]
      by_cases hn : n = 0 <;> simp [hn]

/-- The run of a schedule, as its transitions made one after another (log 7). -/
theorem run_setSchedule {ts : List Transition} {n : Nat} (hn : ts.length = n) (s : State) :
    Host.Core.run core n (s.setSchedule ts) = runTransitions ts (s.setSchedule []) :=
  hn ▸ runFollowsSchedule ts s

/-- Settles O54: the wait is among the fields that a tick leaves. -/
theorem timersRunDuringKeyWait : Obligations.TimersRunDuringKeyWait := by
  intro n s x latch hwait
  obtain ⟨t, ht, hdt, hst, hsnd, hchanges⟩ :=
    runTransitions_timerTicks n (s := s.setSchedule []) (.inr ⟨x, latch, hwait⟩)
  have hschedule : changesOnly [.dt, .st, .snd, .schedule, .trace] s (s.setSchedule []) := changesOnly_update
  exact ⟨t, (run_setSchedule List.length_replicate s).trans ht, hdt, hst,
    fun hn => hsnd.trans (if_neg hn.ne'), hschedule.trans (hchanges.mono (by decide))⟩

/-! ### Key-downs (R211) -/

theorem latchKey_of_unlatched {s : State} {x : RegIdx} (h : s.run = .awaitingKey x none) (k : KeyCode) :
    latchKey k s = s.setRun (.awaitingKey x (some k)) := by
  simp [latchKey, h]

theorem latchKey_of_not_unlatched {s : State} (h : ∀ x, s.run ≠ .awaitingKey x none) (k : KeyCode) :
    latchKey k s = s := by
  unfold latchKey
  split
  case h_1 x hrun => exact absurd hrun (h x)
  all_goals rfl

theorem latchKey_keys (k : KeyCode) (s : State) : (latchKey k s).keys = s.keys := by
  unfold latchKey
  split <;> rfl

/-- A repeat of a held key (D17). -/
theorem keyDown_of_held {k : KeyCode} {s : State} (h : s.keys.getLsbD k.val = true) : keyDown k s = s := by
  simp only [keyDown, h, if_true, ite_self]

theorem keyDown_of_not_held {k : KeyCode} {s : State} (hactive : s.active = true)
    (h : s.keys.getLsbD k.val = false) : keyDown k s = latchKey k (s.setKeys (s.keys ||| keyMask k)) := by
  simp only [keyDown, hactive, h, if_true, Bool.false_eq_true, if_false]

/-- Settles O55. -/
theorem keyDownEffect : Obligations.KeyDownEffect := by
  intro k s hrun
  refine ⟨fun hheld => congrArg _ (keyDown_of_held hheld), fun hfree => ?_⟩
  have hdown := keyDown_of_not_held ((active_iff s).mpr hrun) hfree
  refine ⟨keyDown k s, rfl, fun j => ?_, fun x hwait => ?_, fun hno => ?_, changesOnly_keyDown k s⟩
  · rw [hdown, latchKey_keys]
    exact getLsbD_or_keyMask s.keys k j
  · rw [hdown, latchKey_of_unlatched ((setKeys_run s _).trans hwait)]
    rfl
  · rw [hdown, latchKey_of_not_unlatched (setKeys_run s _ ▸ hno)]
    rfl

/-! ### Key-ups (R204, R212) -/

theorem resolveWait_of_latched {s : State} {x : RegIdx} {k : KeyCode} (h : s.run = .awaitingKey x (some k)) :
    resolveWait k s = (advance (s.setReg x (BitVec.ofNat 8 k.val))).setRun .running := by
  simp [resolveWait, h]

theorem resolveWait_of_not_latched {s : State} {k : KeyCode} (h : ∀ x, s.run ≠ .awaitingKey x (some k)) :
    resolveWait k s = s := by
  unfold resolveWait
  split
  case h_1 x j hrun => exact if_neg fun hj : j = k => h x (hj ▸ hrun)
  all_goals rfl

theorem resolveWait_keys (k : KeyCode) (s : State) : (resolveWait k s).keys = s.keys := by
  unfold resolveWait
  split
  case h_1 => split <;> rfl
  all_goals rfl

/-- A release of a key that is not held (D17). -/
theorem keyUp_of_not_held {k : KeyCode} {s : State} (h : s.keys.getLsbD k.val = false) : keyUp k s = s := by
  simp only [keyUp, h, Bool.false_eq_true, if_false, ite_self]

theorem keyUp_of_held {k : KeyCode} {s : State} (hactive : s.active = true) (h : s.keys.getLsbD k.val = true) :
    keyUp k s = resolveWait k (s.setKeys (s.keys &&& ~~~ keyMask k)) := by
  simp only [keyUp, hactive, h, if_true]

/-- A key code fits in a register. -/
theorem toNat_ofNat_keyCode (k : KeyCode) : (BitVec.ofNat 8 k.val).toNat = k.val :=
  Nat.mod_eq_of_lt (k.isLt.trans (by decide))

/-- Settles O56. -/
theorem keyUpEffect : Obligations.KeyUpEffect := by
  intro k s hrun
  refine ⟨fun hfree => congrArg _ (keyUp_of_not_held hfree), fun hheld => ?_⟩
  have hup := keyUp_of_held ((active_iff s).mpr hrun) hheld
  refine ⟨keyUp k s, rfl, fun j => ?_, fun x hwait => ?_, fun hno => ?_, changesOnly_keyUp k s⟩
  · rw [hup, resolveWait_keys]
    exact getLsbD_and_not_keyMask s.keys k j
  · rw [hup, resolveWait_of_latched ((setKeys_run s _).trans hwait)]
    refine ⟨rfl, ?_, fun r hr => reg_setReg_other _ x r _ hr, rfl⟩
    exact (congrArg BitVec.toNat (reg_setReg_same _ x _)).trans (toNat_ofNat_keyCode k)
  · rw [hup, resolveWait_of_not_latched (setKeys_run s _ ▸ hno)]
    exact changesOnly_update

/-! ### The quit (R214, R226) -/

/-- Settles O59. -/
theorem quitHaltsRun : Obligations.QuitHaltsRun := by
  intro s hrun
  have hquit : quit s = halt .quit s := if_pos ((active_iff s).mpr hrun)
  exact ⟨halt .quit s, congrArg _ hquit, rfl, changesOnly_update⟩

/-! ### The key wait from its FX0A to its end (R203, R204) -/

/-- A field that is as it was needs no place in a frame. -/
theorem changesOnly.drop {f : Field} {fs : List Field} {s t : State} (h : changesOnly (f :: fs) s t)
    (hf : keeps s t f) : changesOnly fs s t := by
  intro g hg
  by_cases hgf : g = f
  · exact hgf ▸ hf
  · exact h g (by simp [hgf, hg])

/-- An FX0A below the halt bound begins its wait in its engine step. -/
theorem engineStep_of_ldVxK {s : State} {x : RegIdx} (hrun : s.run = .running) (hpc : s.pc.toNat + 1 < 4096)
    (hbound : s.pc.toNat < 0x200 + s.romSize + s.config.haltMargin.val)
    (hfetch : fetchWord s = some (encode (.ldVxK x))) : engineStep s = exec (.ldVxK x) s := by
  have hhalt : haltCheck s = false := (haltCheck_eq_false_iff s).mpr ⟨Nat.lt_of_succ_lt hpc, hbound⟩
  rw [engineStep_running s hrun hhalt hfetch, decodeAfterEncode (.ldVxK x) rfl]

/-- Settles O57: the three transitions one after another, each by its own statement. The press sets the key's bit and
the release clears it, so KEYS, like RUN, ends as it was. -/
theorem keyWaitResolves : Obligations.KeyWaitResolves := by
  intro x k s hrun hpc hbound hfetch hfree hschedule
  have hengine : transition .engineStep (s.setSchedule []) = exec (.ldVxK x) (s.setSchedule []) :=
    engineStep_of_ldVxK hrun hpc hbound hfetch
  obtain ⟨u, hu, hwait, hbegun⟩ := keyWaitBegins x (s.setSchedule [])
  have hukeys : u.keys = s.keys := hbegun .keys (by decide)
  obtain ⟨w, hw, hwkeys, hlatch, -, hlatched⟩ := (keyDownEffect k u (.inr ⟨x, none, hwait⟩)).2 (hukeys ▸ hfree)
  have hwait' : w.run = .awaitingKey x (some k) := hlatch x hwait
  obtain ⟨t, ht, htkeys, hresolve, -, hresolved⟩ :=
    (keyUpEffect k w (.inr ⟨x, some k, hwait'⟩)).2 (by simp [hwkeys])
  obtain ⟨htrun, htx, htregs, htpc⟩ := hresolve x hwait'
  have hmade : runTransitions s.schedule (s.setSchedule []) = .next t := by
    simp only [hschedule, runTransitions, hengine, hu, hw, ht]
  have hwaited : changesOnly [.keys, .run] (s.setSchedule []) w := (hbegun.mono (by decide)).trans hlatched
  have hkeys : t.keys = s.keys := by
    refine BitVec.eq_of_getLsbD_eq fun i hi => ?_
    rw [htkeys ⟨i, hi⟩, hwkeys ⟨i, hi⟩, hukeys]
    obtain rfl | hik := eq_or_ne ⟨i, hi⟩ k
    · simpa using hfree
    · simp [hik]
  have hchanges : changesOnly [.keys, .run, .v, .pc, .schedule] s t :=
    .trans changesOnly_update ((hwaited.mono (by decide)).trans (hresolved.mono (by decide)))
  exact ⟨t, (run_setSchedule (congrArg List.length hschedule) s).trans hmade, htx,
    fun r hr => (htregs r hr).trans (hwaited .v (by decide) r), htpc.trans (congrArg (· + 2) (hwaited .pc (by decide))),
    (hresolved .schedule (by decide)).trans (hwaited .schedule (by decide)),
    (hchanges.drop hkeys).drop (htrun.trans hrun.symm)⟩

/-- Settles O58: the other transitions leave RUN as it was, but for a key-down that the wait latches. -/
theorem keyWaitEndsOnlyByReleaseOrQuit : Obligations.KeyWaitEndsOnlyByReleaseOrQuit := by
  intro tr s t x latch hwait ht
  have henabled : s.run = .running ∨ ∃ x latch, s.run = .awaitingKey x latch := .inr ⟨x, latch, hwait⟩
  have hstays (h : t.run = s.run) :
      ∃ latch', t.run = .awaitingKey x latch' ∧ ∀ k, latch = some k → latch' = some k :=
    ⟨latch, h.trans hwait, fun _ => id⟩
  cases tr with
  | engineStep =>
    have hidle : engineStep s = .next s := idleAndTerminalStatesStay.1 s x latch hwait
    exact .inl (hstays (Host.Outcome.next.inj (hidle.symm.trans ht) ▸ rfl))
  | timerTick =>
    obtain rfl := Host.Outcome.next.inj ht
    exact .inl (hstays (changesOnly_timerTick s .run (by decide)))
  | keyDown k =>
    left
    obtain ⟨hrepeat, hpress⟩ := keyDownEffect k s henabled
    cases hheld : s.keys.getLsbD k.val with
    | true => exact hstays (Host.Outcome.next.inj ((hrepeat hheld).symm.trans ht) ▸ rfl)
    | false =>
      obtain ⟨t', ht', -, hlatch, hkeep, -⟩ := hpress hheld
      obtain rfl := Host.Outcome.next.inj (ht.symm.trans ht')
      cases latch with
      | none => exact ⟨some k, hlatch x hwait, nofun⟩
      | some j => exact hstays (hkeep fun y hy => nomatch hwait.symm.trans hy)
  | keyUp k =>
    obtain ⟨hstray, hrelease⟩ := keyUpEffect k s henabled
    cases hheld : s.keys.getLsbD k.val with
    | false => exact .inl (hstays (Host.Outcome.next.inj ((hstray hheld).symm.trans ht) ▸ rfl))
    | true =>
      obtain ⟨t', ht', -, hresolve, hkeep, -⟩ := hrelease hheld
      obtain rfl := Host.Outcome.next.inj (ht.symm.trans ht')
      by_cases hlatch : latch = some k
      · exact .inr (.inl ⟨k, rfl, hlatch, hheld, (hresolve x (hlatch ▸ hwait)).1⟩)
      · refine .inl (hstays (hkeep (fun y hy => hlatch ?_) .run (by decide)))
        cases hwait.symm.trans hy
        rfl
  | quit =>
    obtain ⟨t', ht', hhalted, -⟩ := quitHaltsRun s henabled
    obtain rfl := Host.Outcome.next.inj (ht.symm.trans ht')
    exact .inr (.inr ⟨rfl, hhalted⟩)

/-! ### Host keys (R210) -/

theorem keypadCode_eq_none_iff (m : HostKeyMap) (h : HostKey) :
    keypadCode m h = none ↔ ∀ k : KeyCode, m[k.val] ≠ h := by
  simp [keypadCode]

/-- A code found for a host key is one that the map gives that host key. -/
theorem getElem_of_keypadCode {m : HostKeyMap} {h : HostKey} {k : KeyCode} (hk : keypadCode m h = some k) :
    m[k.val] = h := by
  unfold keypadCode at hk
  simpa using List.find?_some hk

/-- Where no host key has two codes, the code of a code's host key is that code. -/
theorem keypadCode_getElem {m : HostKeyMap} (hm : HostKeyMap.wf m = true) (k : KeyCode) :
    keypadCode m m[k.val] = some k := by
  cases hcode : keypadCode m m[k.val] with
  | none => exact absurd rfl ((keypadCode_eq_none_iff m _).mp hcode k)
  | some j => exact congrArg some (of_decide_eq_true hm j k (getElem_of_keypadCode hcode))

/-- Settles O60. -/
theorem hostKeyMapIsBijection : Obligations.HostKeyMapIsBijection := by
  intro m hm
  refine ⟨fun k => ?_, fun h hno => ?_⟩
  · simp [hostPress, hostRelease, keypadCode_getElem hm]
  · simp [hostPress, hostRelease, (keypadCode_eq_none_iff m h).mpr hno]

end Sys2Proof.Machine

/-! # The recorded cause is kept (R221, R224, R227)

`State.CauseRecorded` says nothing of a state where RUN is Running or AwaitingKey. A transition made from such a state
leaves it active, quits it, halts it where the halt check fires, or raises a fault; a fault changes RUN alone, so the
condition it was raised under still holds. A terminal state is left as it is. -/

namespace Sys2Proof.Machine

/-! ### The condition of each cause -/

/-- The condition R221 gives a fault cause, of a state that raises it or has raised it. -/
def FaultCondition (s : State) : Fault → Prop
  | .stackUnderflow => fetchWord s = some (encode .ret) ∧ s.stack = []
  | .stackOverflow => stackFull s = true ∧ ∃ nnn, fetchWord s = some (encode (.call nnn))
  | .fetchOutOfRange => s.pc.toNat = 4095
  | .memOutOfRange => ∃ i, fetchWord s = some (encode i) ∧ memSize < dataAddress s + dataBytes i ∧ 0 < dataBytes i

/-- The record of R221, cause by cause. -/
theorem causeRecorded_of_conditions {s : State} (hexhausted : s.run = .halted .pcExhausted → haltCheck s = true)
    (hfault : ∀ c, s.run = .fault c → haltCheck s = false ∧ FaultCondition s c) : s.CauseRecorded where
  exhausted := hexhausted
  unhalted c hend := (hfault c hend).1
  underflow hend := (hfault _ hend).2
  overflow hend := (hfault _ hend).2
  fetch hend := (hfault _ hend).2
  range hend := (hfault _ hend).2

theorem causeRecorded_of_active {s : State} (h : s.active = true) : s.CauseRecorded := by
  have hlive : ¬((∃ c, s.run = .halted c) ∨ ∃ c, s.run = .fault c) := by simp [← active_eq_false_iff, h]
  exact causeRecorded_of_conditions (fun hend => absurd (.inl ⟨_, hend⟩) hlive)
    fun c hend => absurd (.inr ⟨c, hend⟩) hlive

/-- A halt by the halt check leaves what the check reads (R101). -/
theorem causeRecorded_halt_pcExhausted {s : State} (h : haltCheck s = true) : (halt .pcExhausted s).CauseRecorded :=
  causeRecorded_of_conditions (fun _ => h) nofun

/-- R221 gives a quit no condition. -/
theorem causeRecorded_halt_quit (s : State) : (halt .quit s).CauseRecorded := causeRecorded_of_conditions nofun nofun

/-- A fault leaves what its condition and the halt check read (R224, R227). -/
theorem causeRecorded_setRun_fault {s : State} {c : Fault} (hhalt : haltCheck s = false) (h : FaultCondition s c) :
    (s.setRun (.fault c)).CauseRecorded := by
  refine causeRecorded_of_conditions nofun fun d hend => ?_
  obtain rfl : c = d := RunState.fault.inj hend
  exact ⟨hhalt, by cases c <;> exact h⟩

/-- The record does not read the schedule. -/
theorem State.CauseRecorded.setSchedule {s : State} (h : s.CauseRecorded) (ts : List Transition) :
    (s.setSchedule ts).CauseRecorded :=
  ⟨h.exhausted, h.unhalted, h.underflow, h.overflow, h.fetch, h.range⟩

/-! ### The engine -/

theorem active_of_run_eq {s t : State} (hs : s.active = true) (h : t.run = s.run) : t.active = true := by
  rw [← hs, State.active, State.active, h]

/-- An instruction at its own word leaves an active state active, or raises a fault whose condition holds. -/
theorem exec_active_or_fault {i : Instr} {s t : State} (hs : s.active = true)
    (hfetch : fetchWord s = some (encode i)) (ht : exec i s = .next t) :
    t.active = true ∨ ∃ c, FaultCondition s c ∧ t = s.setRun (.fault c) := by
  cases i with
  | ret =>
    rcases execRet_cases s with ⟨hempty, he⟩ | ⟨top, -, he⟩
    · exact .inr ⟨.stackUnderflow, ⟨hfetch, hempty⟩, Host.Outcome.next.inj (ht.symm.trans he)⟩
    · exact .inl (Host.Outcome.next.inj (he.symm.trans ht) ▸ hs)
  | call nnn =>
    rcases execCall_cases nnn s with ⟨hfull, he⟩ | ⟨-, he⟩
    · exact .inr ⟨.stackOverflow, ⟨hfull, nnn, hfetch⟩, Host.Outcome.next.inj (ht.symm.trans he)⟩
    · exact .inl (Host.Outcome.next.inj (he.symm.trans ht) ▸ hs)
  | drw | ldB | ldMemVx | ldVxMem =>
    rcases withRange_cases s _ _ with ⟨-, he⟩ | ⟨hout, he⟩
    · exact .inl (Host.Outcome.next.inj (he.symm.trans ht) ▸ hs)
    · obtain ⟨hpos, hrange⟩ := (inMemory_eq_false_iff _ _).mp hout
      exact .inr ⟨.memOutOfRange, ⟨_, hfetch, hrange, hpos⟩, Host.Outcome.next.inj (ht.symm.trans he)⟩
  | ldVxK => exact .inl (Host.Outcome.next.inj ht ▸ rfl)
  | _ => exact .inl (active_of_run_eq hs (changesOnly_exec ht .run (by simp [mayWrite])))

theorem causeRecorded_of_engineStep {s t : State} (h : s.CauseRecorded) (ht : engineStep s = .next t) :
    t.CauseRecorded := by
  rcases engineStep_cases s with ⟨-, he⟩ | ⟨-, hhalt, he⟩ | ⟨-, hhalt, hnone, he⟩ | ⟨w, hrun, hhalt, hfetch, he⟩ <;>
    rw [he] at ht
  · exact Host.Outcome.next.inj ht ▸ h
  · exact Host.Outcome.next.inj ht ▸ causeRecorded_halt_pcExhausted hhalt
  · have hlast : s.pc.toNat = 4095 := by
      have hbelow := ((haltCheck_eq_false_iff s).mp hhalt).1
      have hcut := (fetchWord_eq_none_iff s).mp hnone
      simp only [memSize] at hbelow hcut
      omega
    exact Host.Outcome.next.inj ht ▸ causeRecorded_setRun_fault (c := .fetchOutOfRange) hhalt hlast
  · have hs : s.active = true := (active_iff s).mpr (.inl hrun)
    have hword : fetchWord s = some (encode (decodeWord w)) := by rw [encode_decodeWord, hfetch]
    rcases exec_active_or_fault hs hword ht with hactive | ⟨c, hcondition, rfl⟩
    · exact causeRecorded_of_active hactive
    · exact causeRecorded_setRun_fault hhalt hcondition

/-! ### The other agents -/

theorem active_latchKey {s : State} (hs : s.active = true) (k : KeyCode) : (latchKey k s).active = true := by
  unfold latchKey
  split
  case h_1 => rfl
  all_goals exact hs

theorem active_keyDown {s : State} (hs : s.active = true) (k : KeyCode) : (keyDown k s).active = true := by
  cases hheld : s.keys.getLsbD k.val with
  | true => exact (keyDown_of_held hheld).symm ▸ hs
  | false =>
    rw [keyDown_of_not_held hs hheld]
    exact active_latchKey (s := s.setKeys (s.keys ||| keyMask k)) hs k

theorem active_resolveWait {s : State} (hs : s.active = true) (k : KeyCode) : (resolveWait k s).active = true := by
  unfold resolveWait
  split
  case h_1 => split <;> [rfl; exact hs]
  all_goals exact hs

theorem active_keyUp {s : State} (hs : s.active = true) (k : KeyCode) : (keyUp k s).active = true := by
  cases hheld : s.keys.getLsbD k.val with
  | true =>
    rw [keyUp_of_held hs hheld]
    exact active_resolveWait (s := s.setKeys (s.keys &&& ~~~ keyMask k)) hs k
  | false => exact (keyUp_of_not_held hheld).symm ▸ hs

/-- A quit is the only event that ends a run; the others leave an active state active (R229). -/
theorem causeRecorded_of_transition {s t : State} (h : s.CauseRecorded) {tr : Transition}
    (ht : transition tr s = .next t) : t.CauseRecorded := by
  cases hs : s.active with
  | false => exact Host.Outcome.next.inj ((transition_of_terminal hs tr).symm.trans ht) ▸ h
  | true =>
    cases tr with
    | engineStep => exact causeRecorded_of_engineStep h ht
    | timerTick =>
      have hrun : (timerTick s).run = s.run := changesOnly_timerTick s .run (by decide)
      exact Host.Outcome.next.inj ht ▸ causeRecorded_of_active (active_of_run_eq hs hrun)
    | keyDown k => exact Host.Outcome.next.inj ht ▸ causeRecorded_of_active (active_keyDown hs k)
    | keyUp k => exact Host.Outcome.next.inj ht ▸ causeRecorded_of_active (active_keyUp hs k)
    | quit =>
      have hquit : quit s = halt .quit s := if_pos hs
      exact Host.Outcome.next.inj ht ▸ hquit ▸ causeRecorded_halt_quit s

/-- Settles O16: every step is a transition of an agent, and each keeps the record. -/
theorem stepKeepsRecordedCause : Obligations.StepKeepsRecordedCause := by
  intro s t h ht
  rcases step_cases s with ⟨-, hstep⟩ | ⟨tr, rest, -, hstep⟩
  · exact causeRecorded_of_engineStep h (hstep.symm.trans ht)
  · exact causeRecorded_of_transition (h.setSchedule rest) (hstep.symm.trans ht)

end Sys2Proof.Machine
